-- ==== Sys2Proof/Word.lean ====
section
/-! DEFINITION. The value types of the codec: bytes, 32-bit header integers, pixels (R6), and the plainest
operations on a pixel. -/

namespace Sys2Proof

/-- `Byte` of R6: an 8-bit value, the width `CHANNEL_BITS` of R5. -/
abbrev Byte := BitVec 8

/-- `U32` of R6: the type of width and height (`DIM_BITS` = 32, R5). -/
abbrev U32 := BitVec 32

/-- `Pixel` of R6: four channels of one byte each; equality is exact on all four. -/
structure Pixel where
  r : Byte
  g : Byte
  b : Byte
  a : Byte
  deriving DecidableEq, Repr, Inhabited

/-- `ZERO` of R6. -/
def Pixel.zero : Pixel := ⟨0#8, 0#8, 0#8, 0#8⟩

/-- `p with a := v` of R6. -/
def Pixel.withAlpha (p : Pixel) (v : Byte) : Pixel := ⟨p.r, p.g, p.b, v⟩

end Sys2Proof
end

