-- ==== Sys2Proof/Config.lean ====
section
/-! DEFINITION. The implementation parameters of R5, the one parameter record a machine is built with, and the
free values the spec leaves unspecified. -/

namespace Sys2Proof

/-- `CACHE_SLOTS` of R5. -/
abbrev cacheSlots : Nat := 64

/-- `MAX_RUN` of R5. -/
abbrev maxRun : Nat := 62

/-- `HEADER_BYTES` of R5. -/
abbrev headerLength : Nat := 14

/-- `TRAILER_BYTES` of R5. -/
abbrev trailerLength : Nat := 8

/-- The four bytes of `MAGIC`, in stream order (R5, R71). -/
structure Magic where
  b0 : Byte
  b1 : Byte
  b2 : Byte
  b3 : Byte
  deriving DecidableEq, Repr

/-- What is fixed when a core is built (R233, step 1): `MAGIC`.
A machine carries its `Config` in its state, where no step changes it, so that a statement about every state is a
statement about every `MAGIC` (D3 asks for that). -/
structure Config where
  magic : Magic
  deriving DecidableEq, Repr

/-- PRESUMED (log 1, unsafe): the default `MAGIC` of R5, ASCII `qoif`, which the spec takes from general knowledge. -/
def Config.standard : Config := ⟨⟨0x71#8, 0x6F#8, 0x69#8, 0x66#8⟩⟩

/-- Free value (log 4): `OUT_LEN` as the host finds it after a failed command (R205). -/
opaque Config.freeOutLen : Nat → Nat

/-- Free value (log 13): `HDR_WIDTH` once the result of a DECODE has been taken (R34, R205). -/
opaque Config.freeWidth : Nat → U32

/-- Free value (log 13): `HDR_HEIGHT` once the result of a DECODE has been taken (R34, R205). -/
opaque Config.freeHeight : Nat → U32

/-- Free value (log 13): `HDR_CHANNELS` once the result of a DECODE has been taken (R34, R205). -/
opaque Config.freeChannels : Nat → Byte

/-- Free value (log 13): `HDR_COLORSPACE` once the result of a DECODE has been taken (R34, R205). -/
opaque Config.freeColorspace : Nat → Byte

/-- Free value (log 13): the pixel output once the result of a command has been taken (R34, R205). -/
opaque Config.freePixels : Nat → List Pixel

/-- Free value (log 13): the byte output once the result of a command has been taken (R34). -/
opaque Config.freeBytes : Nat → List Byte

/-- Free value (log 13): `prev` between commands (R34, R214). -/
opaque Config.freePrev : Nat → Pixel

/-- Free value (log 13): `run` between commands (R34, R214), within R22's 0..62. -/
opaque Config.freeRun : Nat → Fin (maxRun + 1)

/-- Free value (log 13): the cache between commands (R34, R214). -/
opaque Config.freeCache : Nat → Vector Pixel cacheSlots

/-- Free value (log 13): `k` between commands (R34, R214). -/
opaque Config.freeInputCursor : Nat → Nat

/-- Free value (log 13): `pos` between commands (R34, R214). -/
opaque Config.freeStreamCursor : Nat → Nat

/-- Free value (log 13): `count` between commands (R34, R214). -/
opaque Config.freePixelCount : Nat → Nat

/-- Free value (log 13): `N` between commands (R34, R214). -/
opaque Config.freeTarget : Nat → Nat

end Sys2Proof
end

