-- ==== Sys2Proof/Syntax.lean ====
section
/-! DEFINITION. The instructions: one constructor per row of the opcode table, which is one per chunk kind (R74, R85),
with its operands as R81 assembles them (deltas are signed integers, the rest unsigned). -/

namespace Sys2Proof

/-- The six chunk kinds of R2 and R74. -/
inductive Kind where
  | rgb
  | rgba
  | index
  | diff
  | luma
  | run
  deriving DecidableEq, Repr

/-- A chunk with its operands, in the operand order of R85. -/
inductive Instr where
  /-- `RGB r, g, b` (R79). -/
  | rgb (r g b : Byte)
  /-- `RGBA r, g, b, a` (R79). -/
  | rgba (r g b a : Byte)
  /-- `INDEX idx` (R75). -/
  | index (idx : BitVec 6)
  /-- `DIFF dr, dg, db` (R76). -/
  | diff (dr dg db : Int)
  /-- `LUMA dg, dr_dg, db_dg` (R77). -/
  | luma (dg drDg dbDg : Int)
  /-- `RUN n` (R78). -/
  | run (n : Nat)
  deriving DecidableEq, Repr

/-- The kind of a chunk. -/
def Instr.kind : Instr → Kind
  | .rgb _ _ _ => .rgb
  | .rgba _ _ _ _ => .rgba
  | .index _ => .index
  | .diff _ _ _ => .diff
  | .luma _ _ _ => .luma
  | .run _ => .run

end Sys2Proof
end

