-- ==== Sys2Proof/WellFormed.lean ====
section
/-! DEFINITION. The operand ranges a chunk's fields can carry (R76, R77, R78, R81). The other operands have the width of
their field in their type. -/

namespace Sys2Proof

/-- `lo..hi`, inclusive, on signed integers (R8). -/
abbrev inRange (lo hi x : Int) : Prop := lo ≤ x ∧ x ≤ hi

/-- Every operand fits its field: DIFF deltas in -2..1, LUMA in -32..31 and -8..7, RUN counts in 1..62. -/
def Instr.wf : Instr → Bool
  | .rgb _ _ _ => true
  | .rgba _ _ _ _ => true
  | .index _ => true
  | .diff dr dg db => decide (inRange (-2) 1 dr) && decide (inRange (-2) 1 dg) && decide (inRange (-2) 1 db)
  | .luma dg drDg dbDg =>
    decide (inRange (-32) 31 dg) && decide (inRange (-8) 7 drDg) && decide (inRange (-8) 7 dbDg)
  | .run n => decide (1 ≤ n) && decide (n ≤ maxRun)

end Sys2Proof
end

