-- ==== Sys2Proof/Decode.lean ====
section
/-! DEFINITION. Bytes to chunks and back: the dispatch on the leading byte (R74), chunk lengths (R80), operand assembly
(R81), the encoder of R75 to R79, the header and the end marker (R71, R73, R9). -/

namespace Sys2Proof

/-- `kind(b)` of R74, in its order of tests: the two 8-bit tags come before the 2-bit tags. -/
def kind (b : Byte) : Kind :=
  if b = 0xFE#8 then .rgb
  else if b = 0xFF#8 then .rgba
  else if b.extractLsb' 6 2 = 0b00#2 then .index
  else if b.extractLsb' 6 2 = 0b01#2 then .diff
  else if b.extractLsb' 6 2 = 0b10#2 then .luma
  else .run

/-- A chunk's length in bytes (R80). -/
def chunkLength : Kind → Nat
  | .rgb => 4
  | .rgba => 5
  | .index => 1
  | .diff => 1
  | .luma => 2
  | .run => 1

/-- Why bytes are no chunk. There is no illegal leading byte (R82): a chunk can only be cut short (R184). -/
inductive DecodeError where
  /-- No byte is left for a leading byte. -/
  | noLeadingByte
  /-- The leading byte is there and an operand byte of its kind is not. -/
  | operandsMissing (kind : Kind)
  deriving DecidableEq, Repr

/-- An unsigned field with its bias subtracted: a signed integer, no sign extension (R81). -/
def unbias {w : Nat} (field : BitVec w) (bias : Int) : Int := (field.toNat : Int) - bias

/-- One chunk from the front of a byte stream, and the bytes after it (R74, R81). -/
def decode : List Byte → Except DecodeError (Instr × List Byte)
  | [] => .error .noLeadingByte
  | b :: rest =>
    match kind b with
    | .rgb =>
      match rest with
      | r :: g :: bl :: rest' => .ok (.rgb r g bl, rest')
      | _ => .error (.operandsMissing .rgb)
    | .rgba =>
      match rest with
      | r :: g :: bl :: a :: rest' => .ok (.rgba r g bl a, rest')
      | _ => .error (.operandsMissing .rgba)
    | .index => .ok (.index (b.extractLsb' 0 6), rest)
    | .diff =>
      .ok (.diff (unbias (b.extractLsb' 4 2) 2) (unbias (b.extractLsb' 2 2) 2) (unbias (b.extractLsb' 0 2) 2), rest)
    | .luma =>
      match rest with
      | b1 :: rest' =>
        .ok (.luma (unbias (b.extractLsb' 0 6) 32) (unbias (b1.extractLsb' 4 4) 8) (unbias (b1.extractLsb' 0 4) 8),
          rest')
      | _ => .error (.operandsMissing .luma)
    | .run => .ok (.run ((b.extractLsb' 0 6).toNat + 1), rest)

/-- A signed value with its bias added, in a field of `w` bits (R81, the other way). -/
def bias (w : Nat) (x b : Int) : BitVec w := BitVec.ofInt w (x + b)

/-- The bytes of a well-formed chunk, fields most significant first (R75 to R79, D4). -/
def encode : Instr → List Byte
  | .rgb r g b => [0xFE#8, r, g, b]
  | .rgba r g b a => [0xFF#8, r, g, b, a]
  | .index idx => [0b00#2 ++ idx]
  | .diff dr dg db => [0b01#2 ++ bias 2 dr 2 ++ bias 2 dg 2 ++ bias 2 db 2]
  | .luma dg drDg dbDg => [0b10#2 ++ bias 6 dg 32, bias 4 drDg 8 ++ bias 4 dbDg 8]
  | .run n => [0b11#2 ++ BitVec.ofNat 6 (n - 1)]

/-- `be32` of R9. -/
def be32 (v : U32) : List Byte :=
  [v.extractLsb' 24 8, v.extractLsb' 16 8, v.extractLsb' 8 8, v.extractLsb' 0 8]

/-- `from_be32` of R9. -/
def fromBe32 (b0 b1 b2 b3 : Byte) : U32 := b0 ++ b1 ++ b2 ++ b3

/-- The header fields a host gives or gets back (R28, R188). -/
structure ImageHeader where
  width : U32
  height : U32
  channels : Byte
  colorspace : Byte
  deriving DecidableEq, Repr

/-- The four bytes of the magic in stream order. -/
def magicBytes (m : Magic) : List Byte := [m.b0, m.b1, m.b2, m.b3]

/-- `header(w, h, ch, cs)` of R71: 14 bytes. -/
def headerBytes (m : Magic) (h : ImageHeader) : List Byte :=
  magicBytes m ++ be32 h.width ++ be32 h.height ++ [h.channels] ++ [h.colorspace]

/-- The fields of the 14 header bytes (R71, R180); nothing where there are fewer. Later bytes are not looked at. -/
def parseHeader : List Byte → Option (Magic × ImageHeader)
  | m0 :: m1 :: m2 :: m3 :: w0 :: w1 :: w2 :: w3 :: h0 :: h1 :: h2 :: h3 :: ch :: cs :: _ =>
    some (⟨m0, m1, m2, m3⟩, ⟨fromBe32 w0 w1 w2 w3, fromBe32 h0 h1 h2 h3, ch, cs⟩)
  | _ => none

/-- `END_MARKER` of R73. -/
def endMarker : List Byte := [0x00#8, 0x00#8, 0x00#8, 0x00#8, 0x00#8, 0x00#8, 0x00#8, 0x01#8]

/-- An instruction word numbered as the opcode table numbers it, laid out in stream order: five bytes (the longest chunk),
the bits above `nbits` zero. -/
def tableBytes (nbits w : Nat) : List Byte :=
  let v := w % 2 ^ nbits
  [BitVec.ofNat 8 v, BitVec.ofNat 8 (v / 2 ^ 8), BitVec.ofNat 8 (v / 2 ^ 16), BitVec.ofNat 8 (v / 2 ^ 24),
    BitVec.ofNat 8 (v / 2 ^ 32)]

/-- The instruction the decoder reads from a table word. -/
def decodeTableWord (nbits w : Nat) : Option Instr :=
  match decode (tableBytes nbits w) with
  | .ok (i, _) => some i
  | .error _ => none

end Sys2Proof
end

