-- ==== Sys2Proof/Machine/State.lean ====
section
/-! DEFINITION. Everything the spec gives the machine, as plain data (10_state.md), the reasons a step can stop, and the
state right after power-on (R230). -/

namespace Sys2Proof.Machine

/-- `CMD` of R28: the two commands. -/
inductive Cmd where
  | encode
  | decode
  deriving DecidableEq, Repr

/-- `phase` of R33. -/
inductive Phase where
  | idle
  | header
  | body
  | trailer
  | done
  | failed
  deriving DecidableEq, Repr

/-- The five typed failures of R200. -/
inductive Failure where
  | invalidDimensions
  | invalidChannelCount
  | badHeader
  | truncatedStream
  | badTrailer
  deriving DecidableEq, Repr

/-- `STATUS` of R29: the outcome of the last command; its numbers are in Machine/Flags.lean. -/
inductive Status where
  | ok
  | failure (e : Failure)
  deriving DecidableEq, Repr

/-- One move of the host (R28, R217, R233). A host's moves wait in `State.host` and the core meets them between commands
only (R56). -/
inductive HostMove where
  /-- Writes `CMD`, which starts the command. -/
  | writeCmd (c : Cmd)
  | writeHdrWidth (v : U32)
  | writeHdrHeight (v : U32)
  | writeHdrChannels (v : Byte)
  | writeHdrColorspace (v : Byte)
  | writeInLen (v : Nat)
  /-- Hands over the ENCODE input (R50). -/
  | supplyPixels (pixels : List Pixel)
  /-- Hands over the DECODE input (R52). -/
  | supplyBytes (bytes : List Byte)
  /-- Hands over the ENCODE output sink, of `OUT_CAPACITY` bytes. -/
  | supplyByteSink (capacity : Nat)
  /-- Hands over the DECODE output sink, of `PIXEL_CAPACITY` pixels. -/
  | supplyPixelSink (capacity : Nat)
  /-- Takes the result of a command that has ended (R33). -/
  | takeResult
  deriving DecidableEq, Repr

/-- The ColorCache of R30: exactly 64 slots. -/
abbrev Cache := Vector Pixel cacheSlots

/-- Every slot `ZERO`: the cache at the start of every command (R30). -/
def Cache.zero : Cache := Vector.replicate cacheSlots Pixel.zero

/-- The machine's state: one field for each piece of state of 10_state.md, then the host's side and the model's own. -/
structure State where
  /-- The parameters the core was built with (R5); no step changes them. -/
  config : Config
  /-- `phase` (R33). -/
  phase : Phase
  /-- `CMD` (R28). -/
  cmd : Cmd
  /-- `HDR_WIDTH` (R28). -/
  hdrWidth : U32
  /-- `HDR_HEIGHT` (R28). -/
  hdrHeight : U32
  /-- `HDR_CHANNELS` (R28). -/
  hdrChannels : Byte
  /-- `HDR_COLORSPACE` (R28). -/
  hdrColorspace : Byte
  /-- `IN_LEN` (R28), an unbounded integer. -/
  inLen : Nat
  /-- `OUT_LEN` (R28), an unbounded integer. -/
  outLen : Nat
  /-- `STATUS` (R29). -/
  status : Status
  /-- `prev`, the previous-pixel register (R21). -/
  prev : Pixel
  /-- `run`, the ENCODE run counter (R22). -/
  run : Nat
  /-- `cache[0..63]` (R30). -/
  cache : Cache
  /-- `k`, the ENCODE input cursor (R25). -/
  k : Nat
  /-- `pos`, the DECODE input cursor (R26). -/
  pos : Nat
  /-- `count`, the pixels DECODE has output so far (R23). -/
  count : Nat
  /-- `N`, the pixel-count target (R23). -/
  n : Nat
  /-- The ENCODE input pixel sequence (R31, R50). -/
  inPixels : List Pixel
  /-- The ENCODE output byte stream (R31, R51). -/
  outBytes : List Byte
  /-- The DECODE input byte stream (R31, R52). -/
  inBytes : List Byte
  /-- The DECODE output pixel sequence (R31, R53). -/
  outPixels : List Pixel
  /-- `OUT_CAPACITY` (R5): the bytes the ENCODE sink the host handed over can hold (R217). -/
  outCapacity : Nat
  /-- `PIXEL_CAPACITY` (R5): the pixels the DECODE sink the host handed over can hold (R217). -/
  pixelCapacity : Nat
  /-- The host's moves that wait for the core, oldest first (R217). -/
  host : List HostMove
  /-- The model's own: how many times free values have been drawn (logs 4 and 13). -/
  freeCount : Nat
  deriving DecidableEq, Repr

/-- Why a step ends in a fault. -/
inductive Fault where
  /-- Raised by the reads of the two inputs (Machine/Ops.lean): the offset is below `IN_LEN` and the buffer the host handed
  over does not reach it. R217 makes "supply IN_LEN pixels" and "supply the complete stream" the host's duty and says
  nothing of a host that does not. Safe: the machine stops. -/
  | inputBufferShort
  deriving DecidableEq, Repr

/-- Why a step is refused. -/
inductive Refusal where
  /-- Raised by Machine/Dispatch.lean for an instruction without a meaning; no arm raises it now. Safe. -/
  | notModelled (mnemonic : String)
  /-- Raised by ENCODE when the stream outgrows the sink: R65 refuses such a command. Safe. -/
  | outputOverCapacity
  /-- Raised by DECODE when `N` exceeds the sink: R65 refuses such a command. Safe. -/
  | pixelsOverCapacity
  /-- Raised by a host move: `CMD` written while a result waits to be taken; a command moves IDLE -> HEADER only (R33).
  Safe. -/
  | commandBeforeResultTaken
  /-- Raised by a host move: an `HDR_*` register written after DECODE, where R28 makes it read-only. Safe. -/
  | headerReadOnly
  /-- Raised by a host move: a result taken where no command has ended (R33). Safe. -/
  | noResultToTake
  deriving DecidableEq, Repr

/-- Power-on (R230): `phase` IDLE, `STATUS` OK, `OUT_LEN` 0. DESIGN CHOICE (log 2, unsafe): every register R230 leaves
unspecified is zero, `CMD` is ENCODE, no buffer and no sink has been handed over. -/
def State.reset : State where
  config := Config.standard
  phase := .idle
  cmd := .encode
  hdrWidth := 0#32
  hdrHeight := 0#32
  hdrChannels := 0#8
  hdrColorspace := 0#8
  inLen := 0
  outLen := 0
  status := .ok
  prev := Pixel.zero
  run := 0
  cache := Cache.zero
  k := 0
  pos := 0
  count := 0
  n := 0
  inPixels := []
  outBytes := []
  inBytes := []
  outPixels := []
  outCapacity := 0
  pixelCapacity := 0
  host := []
  freeCount := 0

end Sys2Proof.Machine
end

