-- ==== Sys2Proof/Machine/Operands.lean ====
section
/-! DEFINITION. The arithmetic on pixels and operands: modular and signed arithmetic (R8), the cache hash (R100), channel
deltas both ways (R120, R121), the pixel each chunk kind reconstructs (41_chunks.md), the range tests of the classifier and
the 3-channel alpha (R50). -/

namespace Sys2Proof.Machine

/-- `wrap8` of R8: an integer modulo 256. -/
def wrap8 (x : Int) : Byte := BitVec.ofInt 8 x

/-- `s8` of R8: a byte reinterpreted in -128..127. -/
def s8 (v : Byte) : Int := if v.toNat < 128 then (v.toNat : Int) else (v.toNat : Int) - 256

/-- `delta(c, p)` of R8: the wrapped difference of two channels, as a signed value. -/
def delta (c p : Byte) : Int := s8 (wrap8 ((c.toNat : Int) - (p.toNat : Int)))

/-- `hash(p)` of R100, computed exactly and then reduced modulo 64. -/
def hash (p : Pixel) : BitVec 6 :=
  BitVec.ofNat 6 (p.r.toNat * 3 + p.g.toNat * 5 + p.b.toNat * 7 + p.a.toNat * 11)

/-- One channel plus a signed delta, wrapped (R121). -/
def addDelta (c : Byte) (d : Int) : Byte := wrap8 ((c.toNat : Int) + d)

/-- `apply(prev, dr, dg, db)` of R121: alpha unchanged. -/
def applyDelta (prev : Pixel) (dr dg db : Int) : Pixel :=
  ⟨addDelta prev.r dr, addDelta prev.g dg, addDelta prev.b db, prev.a⟩

/-- The pixel of an RGB chunk (R131): alpha from `prev`. -/
def rgbPixel (prev : Pixel) (r g b : Byte) : Pixel := ⟨r, g, b, prev.a⟩

/-- The pixel of a DIFF chunk (R127). -/
def diffPixel (prev : Pixel) (dr dg db : Int) : Pixel := applyDelta prev dr dg db

/-- The pixel of a LUMA chunk (R129): the red and blue deltas are relative to green's. -/
def lumaPixel (prev : Pixel) (dg drDg dbDg : Int) : Pixel := applyDelta prev (drDg + dg) dg (dbDg + dg)

/-- How many pixels a RUN of `n` outputs (R135): clipped at the image end (D12). -/
def runLength (n owed : Nat) : Nat := min n owed

/-- The DIFF test of R122: all three deltas in -2..1. -/
abbrev diffFits (dr dg db : Int) : Prop := inRange (-2) 1 dr ∧ inRange (-2) 1 dg ∧ inRange (-2) 1 db

/-- The LUMA test of R122. -/
abbrev lumaFits (dg drDg dbDg : Int) : Prop := inRange (-32) 31 dg ∧ inRange (-8) 7 drDg ∧ inRange (-8) 7 dbDg

/-- An input pixel as ENCODE takes it (R50): alpha is 255 in a 3-channel image, whatever the input holds (D5). -/
def inputPixel (channels : Byte) (p : Pixel) : Pixel := if channels = 3#8 then p.withAlpha 255#8 else p

/-- `width * height`, exact (R23, D9). -/
def pixelCount (width height : U32) : Nat := width.toNat * height.toNat

/-- The channel counts the format has (R72). -/
abbrev channelsOk (channels : Byte) : Prop := channels = 3#8 ∨ channels = 4#8

/-- DECODE's header validation (R181): the magic, the channel count and positive dimensions. -/
abbrev headerOk (expected : Magic) (found : Magic) (h : ImageHeader) : Prop :=
  found = expected ∧ channelsOk h.channels ∧ h.width ≠ 0#32 ∧ h.height ≠ 0#32

end Sys2Proof.Machine
end

