-- ==== Sys2Proof/Machine/Ops.lean ====
section
/-! DEFINITION. The named operations over the state: failure and the end of a command (R203, R204, R205), its return
(R34, R214), the cache (R101, R103), the four streams (R50 to R53) and the values at command start (R34, R231). -/

namespace Sys2Proof.Machine

/-- What a meaning answers. -/
abbrev Outcome := Host.Outcome State Fault Refusal

/-! ### The end of a command -/

/-- `raise E` (R204): `STATUS <- E` and `phase <- FAILED`, and no other register. -/
def raise (e : Failure) (s : State) : State := { s with status := .failure e, phase := .failed }

/-- The end of a command that succeeds (R165, R187): `OUT_LEN`, `STATUS <- OK`, `phase <- DONE`. -/
def succeed (length : Nat) (s : State) : State := { s with outLen := length, status := .ok, phase := .done }

/-- Moves the phase register (R33). -/
def setPhase (p : Phase) (s : State) : State := { s with phase := p }

/-- The working state and the outputs of a command that has returned are discarded (R34, R214): free values, so that
nothing of them is known. -/
def discardWork (s : State) : State :=
  { s with
    prev := Config.freePrev s.freeCount
    run := (Config.freeRun s.freeCount).val
    cache := Config.freeCache s.freeCount
    k := Config.freeInputCursor s.freeCount
    pos := Config.freeStreamCursor s.freeCount
    count := Config.freePixelCount s.freeCount
    n := Config.freeTarget s.freeCount
    outBytes := Config.freeBytes s.freeCount
    outPixels := Config.freePixels s.freeCount }

/-- The `HDR_*` registers are DECODE's outputs and discarded with them (R34, R205); in ENCODE they are the host's operands,
which the core does not change (R57). -/
def discardHeader (s : State) : State :=
  match s.cmd with
  | .encode => s
  | .decode =>
    { s with
      hdrWidth := Config.freeWidth s.freeCount
      hdrHeight := Config.freeHeight s.freeCount
      hdrChannels := Config.freeChannels s.freeCount
      hdrColorspace := Config.freeColorspace s.freeCount }

/-- `OUT_LEN` after a failed command is unspecified (R205, D16): a free value. -/
def discardLength (s : State) : State := { s with outLen := Config.freeOutLen s.freeCount }

/-- The next free values are fresh ones. -/
def countDraw (s : State) : State := { s with freeCount := s.freeCount + 1 }

/-- A command returns to `IDLE` (R33); of all the core wrote, `STATUS` and `OUT_LEN` hold (R34, R214). -/
def returnToIdle (s : State) : State := setPhase .idle (countDraw (discardHeader (discardWork s)))

/-- The host takes the result (R33): `DONE` and `FAILED` return to `IDLE`. A failed command leaves `STATUS` alone (R205). -/
def takeResult (s : State) : Outcome :=
  match s.phase with
  | .done => .next (returnToIdle s)
  | .failed => .next (returnToIdle (discardLength s))
  | .idle => .refused .noResultToTake
  | .header => .refused .noResultToTake
  | .body => .refused .noResultToTake
  | .trailer => .refused .noResultToTake

/-! ### The cache -/

/-- The slot of an index, in any cache: every index is valid (R101). -/
def cacheAt (cache : Cache) (i : BitVec 6) : Pixel := cache[i.toNat]'i.isLt

/-- A cache with one slot overwritten, unconditionally (R103). -/
def cacheSet (cache : Cache) (i : BitVec 6) (p : Pixel) : Cache := cache.set i.toNat p i.isLt

/-- `lookup(i)` (R101). -/
def lookup (i : BitVec 6) (s : State) : Pixel := cacheAt s.cache i

/-- `store(i, p)` (R103). -/
def store (i : BitVec 6) (p : Pixel) (s : State) : State := { s with cache := cacheSet s.cache i p }

/-- The store that follows a DIFF, LUMA, RGB or RGBA outcome, in both directions (R104): `store(hash(p), p)`. -/
def storePixel (p : Pixel) (s : State) : State := store (hash p) p s

/-! ### The four streams -/

/-- `InByte(j)` (R10, R52): nothing where the buffer handed over does not reach `j`. -/
def inByte (j : Nat) (s : State) : Option Byte := s.inBytes[j]?

/-- `InPixel(j)` (R10, R50), before the alpha substitution. -/
def inPixel (j : Nat) (s : State) : Option Pixel := s.inPixels[j]?

/-- `MemRead(addr, n)` (R10): the `n` input bytes from `addr` on; nothing where the buffer does not reach that far. -/
def memRead (addr n : Nat) (s : State) : Option (List Byte) :=
  let bytes := (s.inBytes.drop addr).take n
  if bytes.length = n then some bytes else none

/-- The input bytes from `pos` up to `IN_LEN`: all that DECODE may still read (R184, D11). -/
def unread (s : State) : List Byte := (s.inBytes.take s.inLen).drop s.pos

/-- `Emit(b0, ..., bk)` (R10, R51). -/
def emit (bytes : List Byte) (s : State) : State := { s with outBytes := s.outBytes ++ bytes }

/-- R65 for ENCODE: the stream so far fits the sink, or the command is refused. -/
def withinSink (s : State) : Outcome :=
  if s.outBytes.length ≤ s.outCapacity then .next s else .refused .outputOverCapacity

/-- The step of R183: `OutPixel(px); count <- count + 1; prev <- px`. -/
def outPixel (px : Pixel) (s : State) : State :=
  { s with outPixels := s.outPixels ++ [px], count := s.count + 1, prev := px }

/-- `m` copies of `prev` output, `prev` unchanged (R135, R185). -/
def outRun (m : Nat) (s : State) : State :=
  { s with outPixels := s.outPixels ++ List.replicate m s.prev, count := s.count + m }

/-- `pos <- pos + len` (R26, R80). -/
def advance (len : Nat) (s : State) : State := { s with pos := s.pos + len }

/-- The check of R184 before a chunk's operand bytes are read: the meaning goes on, or TruncatedStream is raised. -/
def withOperands (len : Nat) (s : State) (go : State) : Outcome :=
  if s.inLen < s.pos + len then .next (raise .truncatedStream s) else .next go

/-! ### Command start -/

/-- ENCODE's working state at its start (R34, R231; the assignments of R161). -/
def resetEncode (s : State) : State :=
  { s with prev := Pixel.zero, run := 0, cache := Cache.zero, k := 0, outBytes := [] }

/-- DECODE's working state at its start (R34, R231; the assignments of R180). -/
def resetDecode (s : State) : State :=
  { s with prev := Pixel.zero, cache := Cache.zero, pos := 0, count := 0, outPixels := [] }

/-- The registers at command start, but for the working state (R34): `CMD`, `OUT_LEN` 0, `phase` HEADER. -/
def openCommand (c : Cmd) (s : State) : State := { s with cmd := c, outLen := 0, phase := .header }

/-- `N <- W * H`, from the operands (R34, R160). -/
def loadCount (s : State) : State := { s with n := pixelCount s.hdrWidth s.hdrHeight }

/-- The state at command start (R34): all working state and both outputs are created fresh, whichever the command
(log 13). ENCODE loads `N` from the operands, DECODE from the header it parses. -/
def startCommand (c : Cmd) (s : State) : State :=
  let fresh := resetEncode (resetDecode (openCommand c s))
  match c with
  | .encode => loadCount fresh
  | .decode => fresh

/-- `pos <- p` (R180). -/
def setPos (p : Nat) (s : State) : State := { s with pos := p }

/-- `run <- r` (R22). -/
def setRun (r : Nat) (s : State) : State := { s with run := r }

/-- The end of an ENCODE pixel step (R164): `prev <- cur; k <- k + 1`. -/
def endPixel (cur : Pixel) (s : State) : State := { s with prev := cur, k := s.k + 1 }

/-- `HDR_* <- w, h, ch, cs` and `N <- w * h` (R181). -/
def loadHeader (h : ImageHeader) (s : State) : State :=
  { s with
    hdrWidth := h.width
    hdrHeight := h.height
    hdrChannels := h.channels
    hdrColorspace := h.colorspace
    n := pixelCount h.width h.height }

/-- The four header registers as one value. -/
def imageHeader (s : State) : ImageHeader := ⟨s.hdrWidth, s.hdrHeight, s.hdrChannels, s.hdrColorspace⟩

end Sys2Proof.Machine
end

