-- ==== Sys2Proof/Machine/Decoder.lean ====
section
/-! DEFINITION. The DECODE command (43_decoder.md): header (R180, R181), one chunk a step (R182, R184), end marker
(R187). -/

namespace Sys2Proof.Machine

/-- DECODE's HEADER phase: start and header read (R180), validation (R181), capacity (R65). -/
def decodeHeader (s : State) : Outcome :=
  if s.inLen < headerLength then .next (raise .badHeader (resetDecode s))
  else
    match parseHeader (s.inBytes.take s.inLen) with
    | none => .fault .inputBufferShort
    | some (m, h) =>
      if ¬ headerOk s.config.magic m h then .next (raise .badHeader (setPos headerLength (resetDecode s)))
      else if s.pixelCapacity < pixelCount h.width h.height then .refused .pixelsOverCapacity
      else .next (setPhase .body (loadHeader h (setPos headerLength (resetDecode s))))

/-- DECODE's BODY phase: one chunk while `count < N`, its leading byte selecting its meaning `run` (R182, R186), and
TruncatedStream where the stream ends first (R184); then on to TRAILER. -/
def decodeBody (run : Instr → State → Outcome) (s : State) : Outcome :=
  if s.count < s.n then
    match decode (unread s) with
    | .ok (i, _) => run i s
    | .error _ => if s.inBytes.length < s.inLen then .fault .inputBufferShort else .next (raise .truncatedStream s)
  else .next (setPhase .trailer s)

/-- DECODE's TRAILER phase (R187). -/
def decodeTrailer (s : State) : Outcome :=
  if s.inLen < s.pos + trailerLength then .next (raise .badTrailer s)
  else
    match memRead s.pos trailerLength s with
    | none => .fault .inputBufferShort
    | some bytes => if bytes = endMarker then .next (succeed s.n s) else .next (raise .badTrailer s)

end Sys2Proof.Machine
end

