-- ==== Sys2Proof/Machine/CacheIndex.lean ====
section
/-! DEFINITION. The INDEX chunk, both directions (R124, R125): no cache write in either. -/

namespace Sys2Proof.Machine

/-- INDEX, decode (R125, R183). -/
def execIndex (idx : BitVec 6) (s : State) : Outcome := .next (outPixel (lookup idx s) (advance 1 s))

/-- INDEX, encode (R124). -/
def encodeIndex (idx : BitVec 6) (s : State) : State := emit (encode (.index idx)) s

end Sys2Proof.Machine
end

