-- ==== Sys2Proof/Machine/Delta.lean ====
section
/-! DEFINITION. The difference chunks DIFF and LUMA, both directions (R126 to R129). -/

namespace Sys2Proof.Machine

/-- DIFF, decode (R127, R183). -/
def execDiff (dr dg db : Int) (s : State) : Outcome :=
  let px := diffPixel s.prev dr dg db
  .next (outPixel px (advance 1 (storePixel px s)))

/-- LUMA, decode (R129, R183). -/
def execLuma (dg drDg dbDg : Int) (s : State) : Outcome :=
  let px := lumaPixel s.prev dg drDg dbDg
  withOperands 2 s (outPixel px (advance 2 (storePixel px s)))

/-- DIFF, encode (R126). -/
def encodeDiff (dr dg db : Int) (cur : Pixel) (s : State) : State :=
  storePixel cur (emit (encode (.diff dr dg db)) s)

/-- LUMA, encode (R128). -/
def encodeLuma (dg drDg dbDg : Int) (cur : Pixel) (s : State) : State :=
  storePixel cur (emit (encode (.luma dg drDg dbDg)) s)

end Sys2Proof.Machine
end

