-- ==== Sys2Proof/Machine/RunLength.lean ====
section
/-! DEFINITION. The RUN chunk, both directions (R134, R135): no cache write in either. -/

namespace Sys2Proof.Machine

/-- RUN, decode (R135, R185): `prev` is replayed and does not change. -/
def execRun (n : Nat) (s : State) : Outcome := .next (outRun (runLength n (s.n - s.count)) (advance 1 s))

/-- RUN, encode: the flush of R134. -/
def encodeRun (s : State) : State := setRun 0 (emit (encode (.run s.run)) s)

/-- The flush of a pending run (R163, R165). -/
def flushPending (s : State) : State := if s.run > 0 then encodeRun s else s

end Sys2Proof.Machine
end

