-- ==== Sys2Proof/Machine/Verbatim.lean ====
section
/-! DEFINITION. The verbatim chunks RGB and RGBA, both directions (R130 to R133). -/

namespace Sys2Proof.Machine

/-- RGB, decode (R131, R183). -/
def execRgb (r g b : Byte) (s : State) : Outcome :=
  let px := rgbPixel s.prev r g b
  withOperands 4 s (outPixel px (advance 4 (storePixel px s)))

/-- RGBA, decode (R133, R183). -/
def execRgba (r g b a : Byte) (s : State) : Outcome :=
  let px : Pixel := ⟨r, g, b, a⟩
  withOperands 5 s (outPixel px (advance 5 (storePixel px s)))

/-- RGB, encode (R130). -/
def encodeRgb (r g b : Byte) (cur : Pixel) (s : State) : State := storePixel cur (emit (encode (.rgb r g b)) s)

/-- RGBA, encode (R132). -/
def encodeRgba (r g b a : Byte) (cur : Pixel) (s : State) : State :=
  storePixel cur (emit (encode (.rgba r g b a)) s)

end Sys2Proof.Machine
end

