-- ==== Sys2Proof/Machine/Encoder.lean ====
section
/-! DEFINITION. The ENCODE command (42_encoder.md): validation and header, the classifier (R122), one pixel a step
(R162 to R164), the end (R165). -/

namespace Sys2Proof.Machine

/-- `classify(cur, prev, cache)` (R122): the first tier that applies. -/
def classify (cur prev : Pixel) (cache : Cache) : Instr :=
  let dr := delta cur.r prev.r
  let dg := delta cur.g prev.g
  let db := delta cur.b prev.b
  if cacheAt cache (hash cur) = cur then .index (hash cur)
  else if cur.a = prev.a then
    if diffFits dr dg db then .diff dr dg db
    else if lumaFits dg (dr - dg) (db - dg) then .luma dg (dr - dg) (db - dg)
    else .rgb cur.r cur.g cur.b
  else .rgba cur.r cur.g cur.b cur.a

/-- The encode rule of a chunk's kind (R163: "emit c and write the cache as its encode rule says"); a run is flushed by
R134. -/
def emitChunk (c : Instr) (cur : Pixel) (s : State) : State :=
  match c with
  | .rgb r g b => encodeRgb r g b cur s
  | .rgba r g b a => encodeRgba r g b a cur s
  | .index idx => encodeIndex idx s
  | .diff dr dg db => encodeDiff dr dg db cur s
  | .luma dg drDg dbDg => encodeLuma dg drDg dbDg cur s
  | .run _ => encodeRun s

/-- The run case of a pixel step (R162). -/
def encodeRunPixel (s : State) : State :=
  if s.run + 1 = maxRun ∨ s.k + 1 = s.n then encodeRun (setRun (s.run + 1) s) else setRun (s.run + 1) s

/-- The non-run case of a pixel step (R163). -/
def encodeNewPixel (cur : Pixel) (s : State) : State :=
  emitChunk (classify cur s.prev s.cache) cur (flushPending s)

/-- One ENCODE pixel step (R162, R163, R164). -/
def encodePixel (cur : Pixel) (s : State) : State :=
  endPixel cur (if cur = s.prev then encodeRunPixel s else encodeNewPixel cur s)

/-- ENCODE's HEADER phase: validation (R160, D8), then start and header emission (R161). -/
def encodeHeader (s : State) : Outcome :=
  let size := pixelCount s.hdrWidth s.hdrHeight
  if size = 0 ∨ size ≠ s.inLen then .next (raise .invalidDimensions (loadCount s))
  else if ¬ channelsOk s.hdrChannels then .next (raise .invalidChannelCount (loadCount s))
  else withinSink (setPhase .body (emit (headerBytes s.config.magic (imageHeader s)) (resetEncode (loadCount s))))

/-- ENCODE's BODY phase: one pixel while `k < N` (R164), then on to TRAILER (R33). -/
def encodeBody (s : State) : Outcome :=
  if s.k < s.n then
    match inPixel s.k s with
    | some p => withinSink (encodePixel (inputPixel s.hdrChannels p) s)
    | none => .fault .inputBufferShort
  else .next (setPhase .trailer s)

/-- ENCODE's TRAILER phase (R165). -/
def encodeTrailer (s : State) : Outcome :=
  let s := emit endMarker (flushPending s)
  withinSink (succeed s.outBytes.length s)

end Sys2Proof.Machine
end

