-- ==== Sys2Proof/Machine/HostPort.lean ====
section
/-! DEFINITION. The host's side of the command interface (R28, R56, R217, R233): what each of its moves does, and what it
gets back. -/

namespace Sys2Proof.Machine

/-- `HDR_*` may be written by the host, but not after DECODE, where the registers hold a result (R28). -/
def headerWritable (s : State) : Bool := decide (s.phase = .idle ∨ s.cmd = .encode)

/-- A write of an `HDR_*` register, with `written` the state after it. -/
def writeHeader (s written : State) : Outcome :=
  if headerWritable s then .next written else .refused .headerReadOnly

/-- `CMD` starts a command in `IDLE` (R33, R233). -/
def writeCmd (c : Cmd) (s : State) : Outcome :=
  if s.phase = .idle then .next (startCommand c s) else .refused .commandBeforeResultTaken

/-- What one host move does between commands. -/
def hostMove (m : HostMove) (s : State) : Outcome :=
  match m with
  | .writeCmd c => writeCmd c s
  | .writeHdrWidth v => writeHeader s { s with hdrWidth := v }
  | .writeHdrHeight v => writeHeader s { s with hdrHeight := v }
  | .writeHdrChannels v => writeHeader s { s with hdrChannels := v }
  | .writeHdrColorspace v => writeHeader s { s with hdrColorspace := v }
  | .writeInLen v => .next { s with inLen := v }
  | .supplyPixels px => .next { s with inPixels := px }
  | .supplyBytes bs => .next { s with inBytes := bs }
  | .supplyByteSink c => .next { s with outCapacity := c }
  | .supplyPixelSink c => .next { s with pixelCapacity := c }
  | .takeResult => takeResult s

/-- A step between commands: the host's oldest move, or waiting (R232: "it waits in IDLE for a command"). -/
def hostStep (s : State) : Outcome :=
  match s.host with
  | [] => .next s
  | m :: rest => hostMove m { s with host := rest }

/-- What a host gets back from a command that has ended (R217). -/
inductive Result where
  /-- ENCODE ended with `OK`. -/
  | bytes (out : List Byte)
  /-- DECODE ended with `OK`. -/
  | image (header : ImageHeader) (pixels : List Pixel)
  /-- The command failed; nothing but the error comes back (R205). -/
  | error (e : Failure)
  deriving DecidableEq, Repr

/-- The result that waits in a state, if a command has ended there (R217, R205). -/
def result (s : State) : Option Result :=
  match s.phase, s.status, s.cmd with
  | .done, .ok, .encode => some (.bytes s.outBytes)
  | .done, .ok, .decode => some (.image (imageHeader s) s.outPixels)
  | .failed, .failure e, _ => some (.error e)
  | _, _, _ => none

end Sys2Proof.Machine
end

