-- ==== Sys2Proof/Machine/Step.lean ====
section
/-! DEFINITION. One step of the machine (R20, R33, D30): a host move between commands, else the work of the phase the
running command is in. -/

namespace Sys2Proof.Machine

/-- One step. The host's moves are met between commands only (R56). -/
def step (s : State) : Host.Outcome State Fault Refusal :=
  match s.phase, s.cmd with
  | .idle, _ => hostStep s
  | .done, _ => hostStep s
  | .failed, _ => hostStep s
  | .header, .encode => encodeHeader s
  | .body, .encode => encodeBody s
  | .trailer, .encode => encodeTrailer s
  | .header, .decode => decodeHeader s
  | .body, .decode => decodeBody exec s
  | .trailer, .decode => decodeTrailer s

/-- `s` with one instruction (its bits numbered as the opcode table numbers them) in the input stream at `pos`, in the BODY
of a DECODE that still owes a full run, so that the next step runs it (log 3). -/
def State.withFetchWord (s : State) (nbits w : Nat) : State :=
  let bytes := tableBytes nbits w
  let before := s.inBytes.take s.pos
  { s with
    phase := .body
    cmd := .decode
    inBytes := before ++ List.replicate (s.pos - before.length) 0#8 ++ bytes ++ s.inBytes.drop (s.pos + bytes.length)
    inLen := max s.inLen (s.pos + bytes.length)
    n := max s.n (s.count + maxRun) }

end Sys2Proof.Machine
end

