-- ==== Sys2Proof/Machine/Command.lean ====
section
/-! DEFINITION. The two commands as whole functions of their inputs (R166, R188): what the step machine is to compute. -/

namespace Sys2Proof.Machine

/-- The cache after a pixel coded as `c` (R104). -/
def cacheAfter (c : Instr) (cur : Pixel) (cache : Cache) : Cache :=
  match c with
  | .index _ => cache
  | .run _ => cache
  | .rgb _ _ _ => cacheSet cache (hash cur) cur
  | .rgba _ _ _ _ => cacheSet cache (hash cur) cur
  | .diff _ _ _ => cacheSet cache (hash cur) cur
  | .luma _ _ _ => cacheSet cache (hash cur) cur

/-- The bytes of a pending run, none where there is none (R163). -/
def pendingBytes (run : Nat) : List Byte := if run > 0 then encode (.run run) else []

/-- The loop of R166 over the pixels still to come, alpha already substituted. -/
def encodePixels : List Pixel → Pixel → Nat → Cache → List Byte
  | [], _, run, _ => pendingBytes run
  | cur :: rest, prev, run, cache =>
    if cur = prev then
      if run + 1 = maxRun ∨ rest = [] then encode (.run (run + 1)) ++ encodePixels rest cur 0 cache
      else encodePixels rest cur (run + 1) cache
    else
      let c := classify cur prev cache
      pendingBytes run ++ encode c ++ encodePixels rest cur 0 (cacheAfter c cur cache)

/-- `encode(W, H, CH, CS, pixels)` of R166. -/
def encodeImage (m : Magic) (h : ImageHeader) (pixels : List Pixel) : Except Failure (List Byte) :=
  if pixelCount h.width h.height = 0 ∨ pixelCount h.width h.height ≠ pixels.length then .error .invalidDimensions
  else if ¬ channelsOk h.channels then .error .invalidChannelCount
  else
    .ok (headerBytes m h ++ encodePixels (pixels.map (inputPixel h.channels)) Pixel.zero 0 Cache.zero ++ endMarker)

/-- The pixel a chunk gives and the cache after it (R188, the arms of its loop other than RUN; a RUN repeats `prev`). -/
def chunkPixel (c : Instr) (prev : Pixel) (cache : Cache) : Pixel :=
  match c with
  | .rgb r g b => rgbPixel prev r g b
  | .rgba r g b a => ⟨r, g, b, a⟩
  | .index idx => cacheAt cache idx
  | .diff dr dg db => diffPixel prev dr dg db
  | .luma dg drDg dbDg => lumaPixel prev dg drDg dbDg
  | .run _ => prev

/-- How many pixels a chunk outputs when `owed` are still owed (R80, R135). -/
def chunkCount (c : Instr) (owed : Nat) : Nat :=
  match c with
  | .run n => runLength n owed
  | .rgb _ _ _ => 1
  | .rgba _ _ _ _ => 1
  | .index _ => 1
  | .diff _ _ _ => 1
  | .luma _ _ _ => 1

/-- The loop of R188 with `owed` pixels still owed: the pixels, and the bytes after the last chunk. Every chunk takes at
least one byte, so `fuel` equal to the number of bytes is enough. -/
def decodePixels : Nat → Nat → Pixel → Cache → List Byte → Except Failure (List Pixel × List Byte)
  | _, 0, _, _, bytes => .ok ([], bytes)
  | 0, _ + 1, _, _, _ => .error .truncatedStream
  | fuel + 1, owed + 1, prev, cache, bytes =>
    match decode bytes with
    | .error _ => .error .truncatedStream
    | .ok (c, rest) =>
      let px := chunkPixel c prev cache
      let m := chunkCount c (owed + 1)
      match decodePixels fuel (owed + 1 - m) px (cacheAfter c px cache) rest with
      | .error e => .error e
      | .ok (pixels, after) => .ok (List.replicate m px ++ pixels, after)

/-- `decode(in)` of R188. -/
def decodeImage (m : Magic) (bytes : List Byte) : Except Failure (ImageHeader × List Pixel) :=
  match parseHeader bytes with
  | none => .error .badHeader
  | some (found, h) =>
    if ¬ headerOk m found h then .error .badHeader
    else
      let body := bytes.drop headerLength
      match decodePixels body.length (pixelCount h.width h.height) Pixel.zero Cache.zero body with
      | .error e => .error e
      | .ok (pixels, after) => if after.take trailerLength = endMarker then .ok (h, pixels) else .error .badTrailer

end Sys2Proof.Machine
end

