-- ==== Sys2Proof/Machine/Flags.lean ====
section
/-! DEFINITION. The core has no condition codes (R27): its one outcome register is STATUS, whose numbers are here (R29). -/

namespace Sys2Proof.Machine

/-- The code of a failure (R200). -/
def failureCode : Failure → BitVec 3
  | .invalidDimensions => 1#3
  | .invalidChannelCount => 2#3
  | .badHeader => 3#3
  | .truncatedStream => 4#3
  | .badTrailer => 5#3

/-- The three bits of `STATUS` (R29): `OK` is 0; 6 and 7 do not occur. -/
def statusCode : Status → BitVec 3
  | .ok => 0#3
  | .failure e => failureCode e

/-- The command that raises a failure (R200, the "raised by" column). -/
def raisedBy : Failure → Cmd
  | .invalidDimensions => .encode
  | .invalidChannelCount => .encode
  | .badHeader => .decode
  | .truncatedStream => .decode
  | .badTrailer => .decode

end Sys2Proof.Machine
end

