-- ==== Sys2Proof/Safety.lean ====
section
/-! DEFINITION. The terms in which claims are stated: launch premises (R56, R217), what a chunk and a failure change and
leave alone, and the invariant of the machine. -/

namespace Sys2Proof.Machine

/-- A command is running: the host stays out (R56). -/
abbrev Running (s : State) : Prop := s.phase = .header ∨ s.phase = .body ∨ s.phase = .trailer

/-- The launch premise of R217: the input buffer of the running command holds exactly `IN_LEN` items. -/
abbrev Launched (s : State) : Prop :=
  match s.cmd with
  | .encode => s.inPixels.length = s.inLen
  | .decode => s.inBytes.length = s.inLen

/-- The hash of R100 in the spec's own arithmetic, on integers. -/
def slotNumber (p : Pixel) : Nat := (p.r.toNat * 3 + p.g.toNat * 5 + p.b.toNat * 7 + p.a.toNat * 11) % 64

/-- `c` is channel `p` plus `d`, modulo 256 (R8, R121). -/
def IsShifted (c p : Byte) (d : Int) : Prop := (c.toNat : Int) = ((p.toNat : Int) + d) % 256

/-- Only the slot of `px` is written, and `px` stands there (R103, R104). -/
def StoredOnly (px : Pixel) (s t : State) : Prop :=
  ∀ i : BitVec 6, lookup i t = if i.toNat = slotNumber px then px else lookup i s

/-- No slot is written. -/
def CacheKept (s t : State) : Prop := ∀ i : BitVec 6, lookup i t = lookup i s

/-- Every stream but the DECODE output reads as before, item by item. -/
def StreamsKept (s t : State) : Prop :=
  (∀ j, inByte j t = inByte j s) ∧ (∀ j, inPixel j t = inPixel j s) ∧ (∀ j : Nat, t.outBytes[j]? = s.outBytes[j]?)

/-- What no chunk changes: the parameters, the command interface registers, ENCODE's registers, `N`, the sinks, the host's
side. -/
structure ChunkFrame (s t : State) : Prop where
  config : t.config = s.config
  phase : t.phase = s.phase
  cmd : t.cmd = s.cmd
  hdrWidth : t.hdrWidth = s.hdrWidth
  hdrHeight : t.hdrHeight = s.hdrHeight
  hdrChannels : t.hdrChannels = s.hdrChannels
  hdrColorspace : t.hdrColorspace = s.hdrColorspace
  inLen : t.inLen = s.inLen
  outLen : t.outLen = s.outLen
  status : t.status = s.status
  run : t.run = s.run
  k : t.k = s.k
  n : t.n = s.n
  outCapacity : t.outCapacity = s.outCapacity
  pixelCapacity : t.pixelCapacity = s.pixelCapacity
  host : t.host = s.host
  freeCount : t.freeCount = s.freeCount
  streams : StreamsKept s t

/-- One pixel is output (R183) and the cursor moves past `len` bytes. -/
structure OutputsPixel (px : Pixel) (len : Nat) (s t : State) : Prop where
  outPixels : t.outPixels = s.outPixels ++ [px]
  count : t.count = s.count + 1
  prev : t.prev = px
  pos : t.pos = s.pos + len
  frame : ChunkFrame s t

/-- `raise E` and nothing else (R204). -/
def OnlyRaised (e : Failure) (s t : State) : Prop := t = { s with status := .failure e, phase := .failed }

/-- Every slot holds `ZERO` or a pixel whose hash is the slot (R103). -/
def CacheOwned (s : State) : Prop :=
  ∀ i : BitVec 6, lookup i s = Pixel.zero ∨ slotNumber (lookup i s) = i.toNat

/-- What holds between ENCODE's pixel steps (R22, R25, R34, R51, R107, R160). -/
structure Encoding (s : State) : Prop where
  target : s.n = s.hdrWidth.toNat * s.hdrHeight.toNat
  positive : 0 < s.n
  matched : s.n = s.inLen
  channels : s.hdrChannels = 3#8 ∨ s.hdrChannels = 4#8
  cursor : s.k ≤ s.n
  runBound : s.run < 62
  runSeen : s.run ≤ s.k
  runFlushed : s.k = s.n → s.run = 0
  prevCached : lookup (hash s.prev) s = s.prev
  headed : s.outBytes.take 14 = headerBytes s.config.magic (imageHeader s)
  upper : s.outBytes.length + 5 * s.run ≤ 14 + 5 * s.k
  lower : s.k + 62 * 14 ≤ 62 * s.outBytes.length + s.run
  fits : s.outBytes.length ≤ s.outCapacity
  noPixels : s.outPixels = []

/-- What holds between DECODE's chunk steps (R23, R26, R34, R53, R183, R189). -/
structure Decoding (s : State) : Prop where
  target : s.n = s.hdrWidth.toNat * s.hdrHeight.toNat
  width : s.hdrWidth ≠ 0#32
  height : s.hdrHeight ≠ 0#32
  channels : s.hdrChannels = 3#8 ∨ s.hdrChannels = 4#8
  fits : s.n ≤ s.pixelCapacity
  output : s.outPixels.length = s.count
  owed : s.count ≤ s.n
  headerRead : 14 ≤ s.pos
  cursor : s.pos ≤ s.inLen
  bytesRead : s.pos ≤ 14 + 5 * s.count
  prevIsLast : s.prev = s.outPixels.getLastD Pixel.zero
  noBytes : s.outBytes = []

/-- The invariant every step keeps. Between commands nothing is known of the cache and the outputs (R34, log 13). -/
structure Invariant (s : State) : Prop where
  cache : s.phase ≠ .idle → CacheOwned s
  encodeStart : s.cmd = .encode → s.phase = .header →
    s.prev = Pixel.zero ∧ s.run = 0 ∧ s.cache = Cache.zero ∧ s.k = 0 ∧ s.outBytes = [] ∧ s.outPixels = [] ∧ s.outLen = 0
  decodeStart : s.cmd = .decode → s.phase = .header →
    s.prev = Pixel.zero ∧ s.cache = Cache.zero ∧ s.pos = 0 ∧ s.count = 0 ∧ s.outPixels = [] ∧ s.outBytes = [] ∧
      s.outLen = 0
  encoding : s.cmd = .encode → s.phase = .body ∨ s.phase = .trailer → Encoding s
  decoding : s.cmd = .decode → s.phase = .body ∨ s.phase = .trailer → Decoding s
  encodeTrailer : s.cmd = .encode → s.phase = .trailer → s.k = s.n
  decodeTrailer : s.cmd = .decode → s.phase = .trailer → s.count = s.n
  encodeDone : s.cmd = .encode → s.phase = .done → s.outLen = s.outBytes.length
  decodeDone : s.cmd = .decode → s.phase = .done →
    s.outLen = s.hdrWidth.toNat * s.hdrHeight.toNat ∧ s.outPixels.length = s.outLen
  done : s.phase = .done → s.status = .ok
  failed : s.phase = .failed → ∃ e, s.status = .failure e ∧ raisedBy e = s.cmd
  encodeFailed : s.cmd = .encode → s.phase = .failed → s.outBytes = []

end Sys2Proof.Machine
end

