-- ==== Sys2Proof/Certificates/Slice0/Obligations.lean ====
section
/-! DEFINITION. The statements for the provers. Rule numbers are those of spec/. Where a clause rests on a choice of the
spec's own (a decision D<n>) or of the model's (a log entry), the docstring says so. -/

open Sys2Proof Sys2Proof.Machine

/-! ### Encoding -/

/-- One word of each kind, written out bit by bit from R75 to R79 (field positions: D4), decodes to its chunk. -/
def Obligations.WordsFromTheTablesDecode : Prop :=
  decode [0b11111110#8, 0x64#8, 0x64#8, 0x32#8] = .ok (.rgb 100#8 100#8 50#8, []) ∧
  decode [0b11111111#8, 0x01#8, 0x02#8, 0x03#8, 0x80#8] = .ok (.rgba 1#8 2#8 3#8 128#8, []) ∧
  decode [0b00110101#8] = .ok (.index 53#6, []) ∧
  decode [0b01110011#8] = .ok (.diff 1 (-2) 1, []) ∧
  decode [0b10100011#8, 0b10100001#8] = .ok (.luma 3 2 (-7), []) ∧
  decode [0b11111101#8] = .ok (.run 62, [])

/-- Decoding the bytes of a well-formed chunk, whatever follows them, gives the chunk back with every operand (R74 to
R81; field positions: D4). -/
def Obligations.DecodeOfEncodeIsTheChunk : Prop :=
  ∀ (i : Instr) (rest : List Byte), i.wf = true → decode (encode i ++ rest) = .ok (i, rest)

/-- Every chunk the decoder reads is well-formed, and its bytes are the ones that were read: no two words mean one chunk. -/
def Obligations.EncodeOfDecodeIsTheWord : Prop :=
  ∀ (bytes rest : List Byte) (i : Instr), decode bytes = .ok (i, rest) → i.wf = true ∧ encode i ++ rest = bytes

/-- R75 to R79 with R81: every operand is the unsigned field its table names, less its bias; the verbatim operands are the
bytes after the tag (positions of the DIFF fields and the LUMA nibbles: D4). -/
def Obligations.OperandsAreReadFromTheirFields : Prop :=
  ∀ (b : Byte) (rest : List Byte),
    (b.toNat ≤ 0x3F → ∃ idx : BitVec 6, idx.toNat = b.toNat ∧ decode (b :: rest) = .ok (.index idx, rest)) ∧
    (0x40 ≤ b.toNat → b.toNat ≤ 0x7F → decode (b :: rest) =
      .ok (.diff (((b.toNat / 16 % 4 : Nat) : Int) - 2) (((b.toNat / 4 % 4 : Nat) : Int) - 2)
        (((b.toNat % 4 : Nat) : Int) - 2), rest)) ∧
    (0x80 ≤ b.toNat → b.toNat ≤ 0xBF → ∀ b1 : Byte, decode (b :: b1 :: rest) =
      .ok (.luma (((b.toNat % 64 : Nat) : Int) - 32) (((b1.toNat / 16 : Nat) : Int) - 8)
        (((b1.toNat % 16 : Nat) : Int) - 8), rest)) ∧
    (0xC0 ≤ b.toNat → b.toNat ≤ 0xFD → decode (b :: rest) = .ok (.run (b.toNat % 64 + 1), rest)) ∧
    (b.toNat = 0xFE → ∀ r g bl : Byte, decode (b :: r :: g :: bl :: rest) = .ok (.rgb r g bl, rest)) ∧
    (b.toNat = 0xFF → ∀ r g bl a : Byte, decode (b :: r :: g :: bl :: a :: rest) = .ok (.rgba r g bl a, rest))

/-- R80, the whole table: leading byte ranges, kinds, lengths in bytes, pixels produced. -/
def Obligations.LeadingByteFixesTheLength : Prop :=
  ∀ (b : Byte) (rest after : List Byte) (i : Instr), decode (b :: rest) = .ok (i, after) →
    (∃ operands, rest = operands ++ after ∧
      ((b.toNat ≤ 0x3F ∧ i.kind = .index ∧ operands.length + 1 = 1 ∧ ∀ owed, 1 ≤ owed → chunkCount i owed = 1) ∨
       (0x40 ≤ b.toNat ∧ b.toNat ≤ 0x7F ∧ i.kind = .diff ∧ operands.length + 1 = 1 ∧
         ∀ owed, 1 ≤ owed → chunkCount i owed = 1) ∨
       (0x80 ≤ b.toNat ∧ b.toNat ≤ 0xBF ∧ i.kind = .luma ∧ operands.length + 1 = 2 ∧
         ∀ owed, 1 ≤ owed → chunkCount i owed = 1) ∨
       (0xC0 ≤ b.toNat ∧ b.toNat ≤ 0xFD ∧ i.kind = .run ∧ operands.length + 1 = 1 ∧
         ∀ owed, b.toNat % 64 + 1 ≤ owed → chunkCount i owed = b.toNat % 64 + 1) ∨
       (b.toNat = 0xFE ∧ i.kind = .rgb ∧ operands.length + 1 = 4 ∧ ∀ owed, 1 ≤ owed → chunkCount i owed = 1) ∨
       (b.toNat = 0xFF ∧ i.kind = .rgba ∧ operands.length + 1 = 5 ∧ ∀ owed, 1 ≤ owed → chunkCount i owed = 1)))

/-- No leading byte is illegal (R82): bytes are refused only where one of the chunk's own bytes is missing. -/
def Obligations.OnlyMissingBytesAreRefused : Prop :=
  ∀ bytes : List Byte,
    (∃ e, decode bytes = .error e) ↔ ∀ b, bytes.head? = some b → bytes.length < chunkLength (kind b)

/-- R9: the four bytes of `be32`, most significant first, and `from_be32` as a sum; each undoes the other. -/
def Obligations.BigEndianIntegers : Prop :=
  (∀ v : U32, (be32 v).map BitVec.toNat =
    [v.toNat / 2 ^ 24, v.toNat / 2 ^ 16 % 256, v.toNat / 2 ^ 8 % 256, v.toNat % 256]) ∧
  (∀ b0 b1 b2 b3 : Byte, (fromBe32 b0 b1 b2 b3).toNat =
    b0.toNat * 2 ^ 24 + b1.toNat * 2 ^ 16 + b2.toNat * 2 ^ 8 + b3.toNat) ∧
  (∀ b0 b1 b2 b3 : Byte, be32 (fromBe32 b0 b1 b2 b3) = [b0, b1, b2, b3])

/-- The 14 header bytes parse back to the magic and the four fields, for every magic and whatever follows. -/
def Obligations.HeaderParsesBack : Prop :=
  ∀ (m : Magic) (h : ImageHeader) (rest : List Byte),
    (headerBytes m h).length = 14 ∧ parseHeader (headerBytes m h ++ rest) = some (m, h)

/-! ### Arithmetic -/

/-- R8: `wrap8` is the mathematical modulus, `s8` reinterprets in -128..127, `delta` is their composition, not clamped;
range tests are inclusive, on signed integers. -/
def Obligations.DeltasWrapAndAreSigned : Prop :=
  (∀ x : Int, ((wrap8 x).toNat : Int) = x % 256) ∧
  (∀ v : Byte, s8 v = if v.toNat < 128 then (v.toNat : Int) else (v.toNat : Int) - 256) ∧
  (∀ c p : Byte, -128 ≤ delta c p ∧ delta c p ≤ 127 ∧ IsShifted c p (delta c p) ∧
    delta c p = s8 (wrap8 ((c.toNat : Int) - (p.toNat : Int)))) ∧
  (∀ lo hi x : Int, inRange lo hi x ↔ ¬ (x < lo) ∧ ¬ (hi < x))

/-- R100: the weighted sum modulo 64, in 0..63; reducing each product and the sum modulo 256 first gives the same. -/
def Obligations.HashIsTheWeightedSum : Prop :=
  ∀ p : Pixel,
    (Sys2Proof.Machine.hash p).toNat = (p.r.toNat * 3 + p.g.toNat * 5 + p.b.toNat * 7 + p.a.toNat * 11) % 64 ∧
    (Sys2Proof.Machine.hash p).toNat =
      (p.r * 3#8 + p.g * 5#8 + p.b * 7#8 + p.a * 11#8).toNat % 64 ∧
    Sys2Proof.Machine.hash Pixel.zero = 0#6

/-- R121: each colour channel plus its delta modulo 256, alpha kept; and applying the deltas of R120 restores the pixel. -/
def Obligations.ApplyingDeltasRestoresThePixel : Prop :=
  (∀ (prev : Pixel) (dr dg db : Int),
    IsShifted (applyDelta prev dr dg db).r prev.r dr ∧ IsShifted (applyDelta prev dr dg db).g prev.g dg ∧
    IsShifted (applyDelta prev dr dg db).b prev.b db ∧ (applyDelta prev dr dg db).a = prev.a) ∧
  (∀ c prev : Pixel,
    applyDelta prev (delta c.r prev.r) (delta c.g prev.g) (delta c.b prev.b) = c.withAlpha prev.a)

/-- R123: with green's delta in range, the exact differences lie in -159..159, and the LUMA test comes out the same on the
exact and on the wrapped differences. -/
def Obligations.LumaTestIgnoresWrapping : Prop :=
  ∀ cur prev : Pixel,
    let dr := delta cur.r prev.r
    let dg := delta cur.g prev.g
    let db := delta cur.b prev.b
    (inRange (-32) 31 dg → inRange (-159) 159 (dr - dg) ∧ inRange (-159) 159 (db - dg)) ∧
    (lumaFits dg (dr - dg) (db - dg) ↔ lumaFits dg (s8 (wrap8 (dr - dg))) (s8 (wrap8 (db - dg))))

/-! ### The cache -/

/-- A store overwrites one slot, unconditionally, and a lookup reads the last store (R101, R103, R105). -/
def Obligations.StoreWritesOneSlot : Prop :=
  ∀ (i j : BitVec 6) (p q : Pixel) (s : State),
    lookup j (store i p s) = (if j = i then p else lookup j s) ∧ store i q (store i p s) = store i q s ∧
    store i (lookup i s) s = s

/-! ### The six chunks, decode side. Each statement says the result, the whole frame, and that exec answers a next state. -/

/-- R131 with R183: alpha from `prev`, the cache store, four bytes; TruncatedStream where they are not all there. -/
def Obligations.RgbChunkDecodes : Prop :=
  ∀ (r g b : Byte) (s : State),
    (s.pos + 4 ≤ s.inLen → ∃ t, exec (.rgb r g b) s = .next t ∧
      OutputsPixel ⟨r, g, b, s.prev.a⟩ 4 s t ∧ StoredOnly ⟨r, g, b, s.prev.a⟩ s t) ∧
    (s.inLen < s.pos + 4 → ∃ t, exec (.rgb r g b) s = .next t ∧ OnlyRaised .truncatedStream s t)

/-- R133 with R183: the four bytes are the pixel; TruncatedStream where they are not all there. -/
def Obligations.RgbaChunkDecodes : Prop :=
  ∀ (r g b a : Byte) (s : State),
    (s.pos + 5 ≤ s.inLen → ∃ t, exec (.rgba r g b a) s = .next t ∧
      OutputsPixel ⟨r, g, b, a⟩ 5 s t ∧ StoredOnly ⟨r, g, b, a⟩ s t) ∧
    (s.inLen < s.pos + 5 → ∃ t, exec (.rgba r g b a) s = .next t ∧ OnlyRaised .truncatedStream s t)

/-- R125 with R183: the slot's pixel, whatever its own hash; no cache write; never an error. -/
def Obligations.IndexChunkDecodes : Prop :=
  ∀ (idx : BitVec 6) (s : State),
    ∃ t, exec (.index idx) s = .next t ∧ OutputsPixel (lookup idx s) 1 s t ∧ CacheKept s t

/-- R127 with R183: three deltas added modulo 256, alpha kept, the cache store (also for `DIFF 0,0,0`); never an error. -/
def Obligations.DiffChunkDecodes : Prop :=
  ∀ (dr dg db : Int) (s : State),
    ∃ t px, exec (.diff dr dg db) s = .next t ∧
      IsShifted px.r s.prev.r dr ∧ IsShifted px.g s.prev.g dg ∧ IsShifted px.b s.prev.b db ∧ px.a = s.prev.a ∧
      OutputsPixel px 1 s t ∧ StoredOnly px s t

/-- R129 with R183: red and blue deltas relative to green's; TruncatedStream where the second byte is missing. -/
def Obligations.LumaChunkDecodes : Prop :=
  ∀ (dg drDg dbDg : Int) (s : State),
    (s.pos + 2 ≤ s.inLen → ∃ t px, exec (.luma dg drDg dbDg) s = .next t ∧
      IsShifted px.r s.prev.r (drDg + dg) ∧ IsShifted px.g s.prev.g dg ∧ IsShifted px.b s.prev.b (dbDg + dg) ∧
      px.a = s.prev.a ∧ OutputsPixel px 2 s t ∧ StoredOnly px s t) ∧
    (s.inLen < s.pos + 2 → ∃ t, exec (.luma dg drDg dbDg) s = .next t ∧ OnlyRaised .truncatedStream s t)

/-- R135, R185: `min(n, N - count)` copies of `prev` (clipped: D12), `prev` and the cache unchanged; never an error. -/
def Obligations.RunChunkDecodes : Prop :=
  ∀ (n : Nat) (s : State),
    ∃ t, exec (.run n) s = .next t ∧ ChunkFrame s t ∧ CacheKept s t ∧ t.prev = s.prev ∧ t.pos = s.pos + 1 ∧
      ∃ m, (n ≤ s.n - s.count → m = n) ∧ (s.n - s.count ≤ n → m = s.n - s.count) ∧
        t.count = s.count + m ∧ t.outPixels = s.outPixels ++ List.replicate m s.prev

/-! ### DECODE -/

/-- Where the unread bytes begin with a chunk, a step in the body of a DECODE that still owes pixels is `exec` of that
chunk: nothing is added around it (R182, R186). -/
def Obligations.StepRunsTheDecodedChunk : Prop :=
  ∀ (s : State) (i : Instr) (rest : List Byte),
    s.phase = .body → s.cmd = .decode → s.count < s.n → decode (unread s) = .ok (i, rest) → step s = exec i s

/-- R184: TruncatedStream, and nothing else, where there is no leading byte or an operand byte is missing; otherwise the
step runs a chunk. The buffer is the one the host promised (R217). -/
def Obligations.TruncationIsRaisedBeforeTheChunk : Prop :=
  ∀ s : State, s.phase = .body → s.cmd = .decode → s.count < s.n → s.inBytes.length = s.inLen →
    (s.inLen ≤ s.pos → ∃ t, step s = .next t ∧ OnlyRaised .truncatedStream s t) ∧
    (∀ b, inByte s.pos s = some b →
      (s.inLen < s.pos + chunkLength (kind b) → ∃ t, step s = .next t ∧ OnlyRaised .truncatedStream s t) ∧
      (s.pos + chunkLength (kind b) ≤ s.inLen → ∃ i, i.kind = kind b ∧ step s = exec i s))

/-- R180, R181: an accepted header. The fields are the parsed ones, `N` their exact product (D9), `pos` 14, the predictor
and cache `ZERO`; every register of ENCODE and of the interface not named is unchanged. The colorspace byte is not checked
(D7). -/
def Obligations.DecodeAcceptsAHeader : Prop :=
  ∀ (s : State) (h : ImageHeader),
    s.phase = .header → s.cmd = .decode → s.inBytes.length = s.inLen →
    parseHeader s.inBytes = some (s.config.magic, h) → (h.channels = 3#8 ∨ h.channels = 4#8) →
    h.width ≠ 0#32 → h.height ≠ 0#32 → h.width.toNat * h.height.toNat ≤ s.pixelCapacity →
    ∃ t, step s = .next t ∧
      t.hdrWidth = h.width ∧ t.hdrHeight = h.height ∧ t.hdrChannels = h.channels ∧ t.hdrColorspace = h.colorspace ∧
      t.n = h.width.toNat * h.height.toNat ∧ t.pos = 14 ∧ t.count = 0 ∧ t.outPixels = [] ∧ t.prev = Pixel.zero ∧
      (∀ i, lookup i t = Pixel.zero) ∧ t.phase = .body ∧
      t.status = s.status ∧ t.outLen = s.outLen ∧ t.inLen = s.inLen ∧ t.cmd = s.cmd ∧ t.run = s.run ∧ t.k = s.k ∧
      t.inBytes = s.inBytes ∧ t.inPixels = s.inPixels ∧ t.outBytes = s.outBytes ∧ t.host = s.host ∧
      t.config = s.config ∧ t.outCapacity = s.outCapacity ∧ t.pixelCapacity = s.pixelCapacity ∧ t.freeCount = s.freeCount

/-- R180, R181, R200: every header fault of DECODE is BadHeader: too short (D10), wrong magic, wrong channel count, a zero
dimension. That `HDR_*`, `N` and `OUT_LEN` stand unchanged in FAILED is R204 as log 4 reads it: the model's choice, since
R205 leaves them unspecified to the host. -/
def Obligations.DecodeRejectsABadHeader : Prop :=
  ∀ s : State, s.phase = .header → s.cmd = .decode → s.inBytes.length = s.inLen →
    (s.inLen < 14 ∨ ∃ m h, parseHeader s.inBytes = some (m, h) ∧
      (m ≠ s.config.magic ∨ (h.channels ≠ 3#8 ∧ h.channels ≠ 4#8) ∨ h.width = 0#32 ∨ h.height = 0#32)) →
    ∃ t, step s = .next t ∧ t.status = .failure .badHeader ∧ t.phase = .failed ∧
      t.hdrWidth = s.hdrWidth ∧ t.hdrHeight = s.hdrHeight ∧ t.hdrChannels = s.hdrChannels ∧
      t.hdrColorspace = s.hdrColorspace ∧ t.n = s.n ∧ t.outLen = s.outLen ∧ t.outPixels = []

/-- R53, R65: a good header whose image does not fit the pixel sink is refused, not decoded (that the header step refuses
it is the model's choice: log 7). -/
def Obligations.DecodeRefusesAnImageOverCapacity : Prop :=
  ∀ (s : State) (h : ImageHeader),
    s.phase = .header → s.cmd = .decode → s.inBytes.length = s.inLen →
    parseHeader s.inBytes = some (s.config.magic, h) → (h.channels = 3#8 ∨ h.channels = 4#8) →
    h.width ≠ 0#32 → h.height ≠ 0#32 → s.pixelCapacity < h.width.toNat * h.height.toNat →
    step s = .refused .pixelsOverCapacity

/-- R187: the next 8 bytes are the end marker, or BadTrailer (a short marker too: D13); bytes after them do not matter. -/
def Obligations.DecodeChecksTheEndMarker : Prop :=
  ∀ s : State, s.phase = .trailer → s.cmd = .decode → s.inBytes.length = s.inLen →
    ((s.inBytes.drop s.pos).take 8 = [0#8, 0#8, 0#8, 0#8, 0#8, 0#8, 0#8, 1#8] →
      ∃ t, step s = .next t ∧ t = { s with outLen := s.n, status := .ok, phase := .done }) ∧
    ((s.inBytes.drop s.pos).take 8 ≠ [0#8, 0#8, 0#8, 0#8, 0#8, 0#8, 0#8, 1#8] →
      ∃ t, step s = .next t ∧ OnlyRaised .badTrailer s t)

/-- R164, R182: with no pixel left, either command goes on to TRAILER and changes nothing else (that this is a step of its
own is the model's choice: log 8). -/
def Obligations.BodyEndsAtThePixelCount : Prop :=
  ∀ s : State, s.phase = .body → (s.cmd = .encode ∧ s.k = s.n ∨ s.cmd = .decode ∧ s.count = s.n) →
    ∃ t, step s = .next t ∧ t = { s with phase := .trailer }

/-! ### ENCODE -/

/-- R160, R206: InvalidDimensions first (D8), then InvalidChannelCount; no output and no register but `N` and the outcome. -/
def Obligations.EncodeRejectsABadImage : Prop :=
  ∀ s : State, s.phase = .header → s.cmd = .encode →
    let size := s.hdrWidth.toNat * s.hdrHeight.toNat
    (size = 0 ∨ size ≠ s.inLen → ∃ t, step s = .next t ∧ OnlyRaised .invalidDimensions { s with n := size } t) ∧
    (size ≠ 0 → size = s.inLen → s.hdrChannels ≠ 3#8 → s.hdrChannels ≠ 4#8 →
      ∃ t, step s = .next t ∧ OnlyRaised .invalidChannelCount { s with n := size } t)

/-- R161: the start values, the 14 header bytes as the whole output, and `phase` BODY; the colorspace byte is not checked
(D7, log 10). -/
def Obligations.EncodeEmitsTheHeader : Prop :=
  ∀ s : State, s.phase = .header → s.cmd = .encode → s.hdrWidth.toNat * s.hdrHeight.toNat ≠ 0 →
    s.hdrWidth.toNat * s.hdrHeight.toNat = s.inLen → (s.hdrChannels = 3#8 ∨ s.hdrChannels = 4#8) → 14 ≤ s.outCapacity →
    ∃ t, step s = .next t ∧
      t.outBytes = [s.config.magic.b0, s.config.magic.b1, s.config.magic.b2, s.config.magic.b3] ++ be32 s.hdrWidth ++
        be32 s.hdrHeight ++ [s.hdrChannels, s.hdrColorspace] ∧
      t.prev = Pixel.zero ∧ t.run = 0 ∧ t.k = 0 ∧ (∀ i, lookup i t = Pixel.zero) ∧ t.n = s.inLen ∧ t.phase = .body ∧
      t.status = s.status ∧ t.outLen = s.outLen ∧ t.inLen = s.inLen ∧ t.cmd = s.cmd ∧ t.pos = s.pos ∧
      t.count = s.count ∧ t.outPixels = s.outPixels ∧ t.inPixels = s.inPixels ∧ t.inBytes = s.inBytes ∧
      imageHeader t = imageHeader s ∧ t.outCapacity = s.outCapacity ∧ t.pixelCapacity = s.pixelCapacity ∧
      t.host = s.host ∧ t.config = s.config ∧ t.freeCount = s.freeCount

/-- R162 with R164: a pixel equal to `prev` extends the run, which is flushed at 62 or at the last pixel; no cache write. -/
def Obligations.EncodeExtendsARun : Prop :=
  ∀ (s : State) (p : Pixel),
    s.phase = .body → s.cmd = .encode → s.k < s.n → inPixel s.k s = some p →
    inputPixel s.hdrChannels p = s.prev → s.run < 62 → s.outBytes.length + 1 ≤ s.outCapacity →
    (s.run + 1 = 62 ∨ s.k + 1 = s.n →
      step s = .next { s with outBytes := s.outBytes ++ [BitVec.ofNat 8 (0xC0 + s.run)], run := 0, k := s.k + 1 }) ∧
    (s.run + 1 ≠ 62 → s.k + 1 ≠ s.n → step s = .next { s with run := s.run + 1, k := s.k + 1 })

/-- R163 with R164 and R104: a pixel other than `prev` flushes the pending run, then its chunk is emitted; the cache is
written unless the chunk is INDEX. -/
def Obligations.EncodeEmitsAChunk : Prop :=
  ∀ (s : State) (p : Pixel),
    s.phase = .body → s.cmd = .encode → s.k < s.n → inPixel s.k s = some p →
    inputPixel s.hdrChannels p ≠ s.prev → s.run ≤ 62 → s.outBytes.length + 6 ≤ s.outCapacity →
    ∃ t c, step s = .next t ∧ c = classify (inputPixel s.hdrChannels p) s.prev s.cache ∧
      t.outBytes = s.outBytes ++ (if s.run = 0 then [] else [BitVec.ofNat 8 (0xC0 + (s.run - 1))]) ++ encode c ∧
      t.run = 0 ∧ t.prev = inputPixel s.hdrChannels p ∧ t.k = s.k + 1 ∧
      (c.kind = .index → CacheKept s t) ∧ (c.kind ≠ .index → StoredOnly (inputPixel s.hdrChannels p) s t) ∧
      t = { s with outBytes := t.outBytes, run := t.run, prev := t.prev, k := t.k, cache := t.cache }

/-- R50: in a 3-channel image the alpha of an input pixel is 255, whatever the input holds (D5); otherwise the pixel is
taken as it is. -/
def Obligations.ThreeChannelAlphaIsSupplied : Prop :=
  ∀ (ch : Byte) (p : Pixel),
    (ch = 3#8 → inputPixel ch p = { p with a := 255#8 }) ∧ (ch ≠ 3#8 → inputPixel ch p = p)

/-- R122: the tiers in order, each by its own condition; the index test comes first, even when alpha differs (C1). -/
def Obligations.ClassifierTiersInOrder : Prop :=
  ∀ (cur prev : Pixel) (cache : Cache),
    let hit := ∃ i : BitVec 6, i.toNat = slotNumber cur ∧ cacheAt cache i = cur
    let dr := delta cur.r prev.r
    let dg := delta cur.g prev.g
    let db := delta cur.b prev.b
    let small := -2 ≤ dr ∧ dr ≤ 1 ∧ -2 ≤ dg ∧ dg ≤ 1 ∧ -2 ≤ db ∧ db ≤ 1
    let luma := -32 ≤ dg ∧ dg ≤ 31 ∧ -8 ≤ dr - dg ∧ dr - dg ≤ 7 ∧ -8 ≤ db - dg ∧ db - dg ≤ 7
    (hit → ∃ i : BitVec 6, i.toNat = slotNumber cur ∧ classify cur prev cache = .index i) ∧
    (¬ hit → cur.a ≠ prev.a → classify cur prev cache = .rgba cur.r cur.g cur.b cur.a) ∧
    (¬ hit → cur.a = prev.a → small → classify cur prev cache = .diff dr dg db) ∧
    (¬ hit → cur.a = prev.a → ¬ small → luma → classify cur prev cache = .luma dg (dr - dg) (db - dg)) ∧
    (¬ hit → cur.a = prev.a → ¬ small → ¬ luma → classify cur prev cache = .rgb cur.r cur.g cur.b)

/-- R137: every pixel is representable: the chunk chosen is well-formed, is never a run, and takes 1, 2, 4 or 5 bytes. -/
def Obligations.EveryPixelHasAChunk : Prop :=
  ∀ (cur prev : Pixel) (cache : Cache),
    (classify cur prev cache).wf = true ∧ (classify cur prev cache).kind ≠ .run ∧
    (encode (classify cur prev cache)).length = chunkLength (classify cur prev cache).kind ∧
    (encode (classify cur prev cache)).length ∈ [1, 2, 4, 5]

/-- R136: DECODE of the chunk ENCODE chose for a pixel, from the same `prev` and cache, yields the pixel and leaves the
cache ENCODE leaves. -/
def Obligations.ChunkDecodesToItsPixel : Prop :=
  ∀ (s : State) (cur : Pixel), cur ≠ s.prev → s.pos + 5 ≤ s.inLen →
    let c := classify cur s.prev s.cache
    (∀ rest, decode (encode c ++ rest) = .ok (c, rest)) ∧
    ∃ t, exec c s = .next t ∧ t.prev = cur ∧ t.outPixels = s.outPixels ++ [cur] ∧ t.cache = (emitChunk c cur s).cache

/-- R132, R50: the first pixel of a 3-channel image is an RGBA chunk, whatever its colours and the input's alpha. -/
def Obligations.ThreeChannelImagesStartWithRgba : Prop :=
  ∀ (s : State) (p : Pixel),
    s.phase = .body → s.cmd = .encode → s.k = 0 → s.k < s.n → s.run = 0 → s.prev = Pixel.zero → s.cache = Cache.zero →
    s.hdrChannels = 3#8 → inPixel 0 s = some p → s.outBytes.length + 5 ≤ s.outCapacity →
    ∃ t, step s = .next t ∧ t.outBytes = s.outBytes ++ [0xFF#8, p.r, p.g, p.b, 0xFF#8]

/-- R165: a run still pending is flushed (R165 says none ever is), then the end marker; `OUT_LEN` is the stream's length,
`STATUS` OK, `phase` DONE. -/
def Obligations.EncodeEndsTheStream : Prop :=
  ∀ s : State, s.phase = .trailer → s.cmd = .encode → s.run ≤ 62 →
    let flushed := if s.run = 0 then [] else [BitVec.ofNat 8 (0xC0 + (s.run - 1))]
    let stream := s.outBytes ++ flushed ++ [0#8, 0#8, 0#8, 0#8, 0#8, 0#8, 0#8, 1#8]
    stream.length ≤ s.outCapacity →
    step s = .next { s with outBytes := stream, run := 0, outLen := stream.length, status := .ok, phase := .done }

/-! ### The host and the life of a command -/

/-- R230, R232: after power-on `phase` is IDLE, `STATUS` 0 and `OUT_LEN` 0, and a core with no host move waits. -/
def Obligations.PowerOnWaitsInIdle : Prop :=
  State.reset.phase = .idle ∧ statusCode State.reset.status = 0#3 ∧ State.reset.outLen = 0 ∧
  ∀ s : State, s.phase = .idle → s.host = [] → step s = .next s

/-- R34, R231: a write of `CMD` in IDLE starts the command from the reset values, with both outputs empty, whatever the
registers held; `STATUS` and what the host sent stay (`OUT_LEN` 0: D28; the phase register: D30; that the working registers
of the other command are reset too is the model's choice: log 13). -/
def Obligations.EveryCommandStartsFresh : Prop :=
  ∀ (s : State) (c : Cmd) (moves : List HostMove), s.phase = .idle → s.host = .writeCmd c :: moves →
    ∃ t, step s = .next t ∧ t.cmd = c ∧ t.phase = .header ∧ t.outLen = 0 ∧ t.prev = Pixel.zero ∧
      (∀ i, lookup i t = Pixel.zero) ∧ t.outBytes = [] ∧ t.outPixels = [] ∧
      t.run = 0 ∧ t.k = 0 ∧ t.pos = 0 ∧ t.count = 0 ∧
      (c = .encode → t.n = s.hdrWidth.toNat * s.hdrHeight.toNat) ∧
      t.host = moves ∧ t.status = s.status ∧ t.hdrWidth = s.hdrWidth ∧ t.hdrHeight = s.hdrHeight ∧
      t.hdrChannels = s.hdrChannels ∧ t.hdrColorspace = s.hdrColorspace ∧ t.inLen = s.inLen ∧
      t.inPixels = s.inPixels ∧ t.inBytes = s.inBytes ∧ t.outCapacity = s.outCapacity ∧
      t.pixelCapacity = s.pixelCapacity ∧ t.config = s.config ∧ t.freeCount = s.freeCount

/-- R28: between commands a host move writes its own register or buffer and no other; `HDR_*` are read-only after DECODE
(the refusal is the model's: log 5). -/
def Obligations.HostMovesWriteTheirRegister : Prop :=
  ∀ (s : State) (m : HostMove) (moves : List HostMove),
    s.phase = .idle ∨ s.phase = .done ∨ s.phase = .failed → s.host = m :: moves →
    (∀ v, m = .writeInLen v → step s = .next { s with host := moves, inLen := v }) ∧
    (∀ v, m = .supplyPixels v → step s = .next { s with host := moves, inPixels := v }) ∧
    (∀ v, m = .supplyBytes v → step s = .next { s with host := moves, inBytes := v }) ∧
    (∀ v, m = .supplyByteSink v → step s = .next { s with host := moves, outCapacity := v }) ∧
    (∀ v, m = .supplyPixelSink v → step s = .next { s with host := moves, pixelCapacity := v }) ∧
    (s.phase = .idle ∨ s.cmd = .encode →
      (∀ v, m = .writeHdrWidth v → step s = .next { s with host := moves, hdrWidth := v }) ∧
      (∀ v, m = .writeHdrHeight v → step s = .next { s with host := moves, hdrHeight := v }) ∧
      (∀ v, m = .writeHdrChannels v → step s = .next { s with host := moves, hdrChannels := v }) ∧
      (∀ v, m = .writeHdrColorspace v → step s = .next { s with host := moves, hdrColorspace := v })) ∧
    (s.phase ≠ .idle → s.cmd = .decode →
      (∀ v, m = .writeHdrWidth v → step s = .refused .headerReadOnly) ∧
      (∀ v, m = .writeHdrHeight v → step s = .refused .headerReadOnly) ∧
      (∀ v, m = .writeHdrChannels v → step s = .refused .headerReadOnly) ∧
      (∀ v, m = .writeHdrColorspace v → step s = .refused .headerReadOnly))

/-- R33, R205, R214: DONE and FAILED return to IDLE when the host takes the result. `STATUS` is kept, and after DONE
`OUT_LEN`; so is what the host sent, which the core does not change (R57; that it stays until the host sends anew is the
model's choice: logs 5 and 13). Of a failed command the error alone comes back. -/
def Obligations.TakingTheResultReturnsToIdle : Prop :=
  ∀ (s : State) (moves : List HostMove), s.host = .takeResult :: moves → (s.phase = .done ∨ s.phase = .failed) →
    (∃ t, step s = .next t ∧ t.phase = .idle ∧ t.status = s.status ∧ (s.phase = .done → t.outLen = s.outLen) ∧
      t.host = moves ∧ t.config = s.config ∧ t.cmd = s.cmd ∧ t.inBytes = s.inBytes ∧ t.inPixels = s.inPixels ∧
      t.inLen = s.inLen ∧ t.outCapacity = s.outCapacity ∧ t.pixelCapacity = s.pixelCapacity ∧
      (s.cmd = .encode → imageHeader t = imageHeader s)) ∧
    (∀ e, s.phase = .failed → s.status = .failure e → result s = some (.error e))

/-- R34, R214: nothing of a command survives its return but `STATUS` and, after DONE, `OUT_LEN`: two cores that agree on
these and on what the host sent (`CMD`, `IN_LEN`, the inputs, the sinks, the moves that wait, and after ENCODE the `HDR_*`
operands) are in one and the same state once the result is taken, whatever their working registers, caches and outputs,
and after DECODE whatever their `HDR_*`. The counter of the free values must agree, since the discarded registers hold free
values (log 13). -/
def Obligations.NothingOfACommandSurvives : Prop :=
  ∀ (s s' : State) (moves : List HostMove),
    s.host = .takeResult :: moves → s'.host = s.host → (s.phase = .done ∨ s.phase = .failed) → s'.phase = s.phase →
    s'.config = s.config → s'.cmd = s.cmd → s'.status = s.status → s'.inLen = s.inLen → s'.inBytes = s.inBytes →
    s'.inPixels = s.inPixels → s'.outCapacity = s.outCapacity → s'.pixelCapacity = s.pixelCapacity →
    s'.freeCount = s.freeCount → (s.phase = .done → s'.outLen = s.outLen) →
    (s.cmd = .encode → imageHeader s' = imageHeader s) →
    ∃ t, step s = .next t ∧ step s' = .next t ∧ t.phase = .idle

/-- R56, R57, R60: while a command runs no host move happens, and no step changes the inputs, `IN_LEN`, `CMD`, the sinks, or
(in ENCODE) the `HDR_*` registers (the host's silence is D19). -/
def Obligations.RunningCommandsKeepTheirInputs : Prop :=
  ∀ s t : State, Running s → step s = .next t →
    t.host = s.host ∧ (∀ j, inByte j t = inByte j s) ∧ (∀ j, inPixel j t = inPixel j s) ∧ t.inLen = s.inLen ∧
    t.cmd = s.cmd ∧ t.outCapacity = s.outCapacity ∧ t.pixelCapacity = s.pixelCapacity ∧ t.freeCount = s.freeCount ∧
    (s.cmd = .encode → imageHeader t = imageHeader s ∧ t.pos = s.pos ∧ t.count = s.count ∧ t.outPixels = s.outPixels) ∧
    (s.cmd = .decode → t.run = s.run ∧ t.k = s.k ∧ t.outBytes = s.outBytes)

/-- R233: `MAGIC` is fixed when the core is built. -/
def Obligations.MagicNeverChanges : Prop :=
  ∀ s t : State, step s = .next t → t.config = s.config

/-- R33: the only moves of the phase register, which is the spec's own (D30). -/
def Obligations.PhasesMoveInOrder : Prop :=
  ∀ s t : State, step s = .next t → t.phase = s.phase ∨
    (s.phase = .idle ∧ t.phase = .header) ∨ (s.phase = .header ∧ t.phase = .body) ∨
    (s.phase = .body ∧ t.phase = .trailer) ∨ (s.phase = .trailer ∧ t.phase = .done) ∨
    (Running s ∧ t.phase = .failed) ∨ (s.phase = .done ∧ t.phase = .idle) ∨ (s.phase = .failed ∧ t.phase = .idle)

/-- R203: `STATUS` is written exactly when a running command ends, with `OK` at DONE and a failure's code at FAILED; no other
step changes it. -/
def Obligations.StatusIsWrittenAtTheEnd : Prop :=
  ∀ s t : State, step s = .next t →
    (Running s → t.phase = .done → t.status = .ok) ∧
    (Running s → t.phase = .failed → ∃ e, t.status = .failure e ∧ statusCode t.status ≠ 0#3) ∧
    (Running s → t.phase ≠ .done → t.phase ≠ .failed → t.status = s.status) ∧
    (¬ Running s → t.status = s.status)

/-- R200: ENCODE raises codes 1 and 2 only, at its header; DECODE raises 3 at its header, 4 in its body, 5 at its end (the
numbers are D15's). -/
def Obligations.EachFailureHasItsCommandAndPlace : Prop :=
  ∀ s t : State, Running s → step s = .next t → t.phase = .failed →
    (s.cmd = .encode ∧ s.phase = .header ∧ (statusCode t.status = 1#3 ∨ statusCode t.status = 2#3)) ∨
    (s.cmd = .decode ∧ s.phase = .header ∧ statusCode t.status = 3#3) ∨
    (s.cmd = .decode ∧ s.phase = .body ∧ statusCode t.status = 4#3) ∨
    (s.cmd = .decode ∧ s.phase = .trailer ∧ statusCode t.status = 5#3)

/-- R204: a failure after the header changes `STATUS` and `phase` and nothing else. -/
def Obligations.FailuresArePrecise : Prop :=
  ∀ s t : State, s.phase = .body ∨ s.phase = .trailer → step s = .next t → t.phase = .failed →
    ∃ e, OnlyRaised e s t

/-- R218: a running command that was handed the buffer it was promised (R217) never faults; it can be refused for capacity
alone (R65). The invariant rules out states no run reaches (a body whose `N` is not `IN_LEN`). -/
def Obligations.OnlyCapacityStopsACommand : Prop :=
  ∀ s : State, Invariant s → Running s → Launched s →
    (∃ t, step s = .next t) ∨ (s.cmd = .encode ∧ step s = .refused .outputOverCapacity) ∨
    (s.cmd = .decode ∧ s.phase = .header ∧ step s = .refused .pixelsOverCapacity)

/-- The invariant of the machine is kept by every step, from every state that meets it (R22, R23, R25, R26, R34, R51, R53,
R103, R107, R189, R203). -/
def Obligations.EveryStepKeepsTheInvariant : Prop :=
  ∀ s t : State, Invariant s → step s = .next t → Invariant t

/-- The invariant holds at power-on (the working registers there are the model's zeros: log 2). -/
def Obligations.PowerOnMeetsTheInvariant : Prop := Invariant State.reset

/-! ### Whole commands -/

/-- R166: from its start, with the pixels it was promised and a sink that holds the stream, the step machine reaches DONE in
N + 3 steps with exactly the bytes of the whole-command function (the three steps beside the N pixel steps are the model's
granularity: log 8). -/
def Obligations.EncodeRunsToTheWholeStream : Prop :=
  ∀ (s : State) (bytes : List Byte), s.phase = .header → s.cmd = .encode → s.inPixels.length = s.inLen →
    encodeImage s.config.magic (imageHeader s) s.inPixels = .ok bytes → bytes.length ≤ s.outCapacity →
    ∃ t, Host.Core.run Sys2Proof.core (s.inLen + 3) s = .next t ∧ result t = some (.bytes bytes) ∧
      t.outLen = bytes.length

/-- R65: the same with a sink too small for the stream is refused, with no result (at which step is the model's choice:
log 7). -/
def Obligations.EncodeOverCapacityIsRefused : Prop :=
  ∀ (s : State) (bytes : List Byte), s.phase = .header → s.cmd = .encode → s.inPixels.length = s.inLen →
    encodeImage s.config.magic (imageHeader s) s.inPixels = .ok bytes → s.outCapacity < bytes.length →
    Host.Core.run Sys2Proof.core (s.inLen + 3) s = .refused .outputOverCapacity

/-- R188: from its start, with the bytes it was promised and a sink for the pixels, the step machine ends with the result of
the whole-command function, success or failure. A success takes at most N + 3 steps: R189 bounds the chunk steps by N, and the three
further steps are the model's granularity (log 8). -/
def Obligations.DecodeRunsToTheWholeImage : Prop :=
  ∀ s : State, s.phase = .header → s.cmd = .decode → s.inBytes.length = s.inLen →
    (∀ m h, parseHeader s.inBytes = some (m, h) → headerOk s.config.magic m h →
      h.width.toNat * h.height.toNat ≤ s.pixelCapacity) →
    ∃ steps t, Host.Core.run Sys2Proof.core steps s = .next t ∧
      (∀ h px, decodeImage s.config.magic s.inBytes = .ok (h, px) →
        result t = some (.image h px) ∧ t.outLen = px.length ∧ steps ≤ px.length + 3) ∧
      (∀ e, decodeImage s.config.magic s.inBytes = .error e → result t = some (.error e))

/-- R190: decoding an encoded image gives back the header and the pixels, for every magic. -/
def Obligations.DecodeOfEncodeIsTheImage : Prop :=
  ∀ (m : Magic) (h : ImageHeader) (pixels : List Pixel),
    h.width ≠ 0#32 → h.height ≠ 0#32 → (h.channels = 3#8 ∨ h.channels = 4#8) →
    pixels.length = h.width.toNat * h.height.toNat → (h.channels = 3#8 → ∀ p ∈ pixels, p.a = 255#8) →
    ∃ bytes, encodeImage m h pixels = .ok bytes ∧ decodeImage m bytes = .ok (h, pixels)

/-- R51: the length bounds of an encoded image of N pixels: `22 + ceil(N/62)` and `22 + 5*N`. -/
def Obligations.StreamLengthBounds : Prop :=
  ∀ (m : Magic) (h : ImageHeader) (pixels : List Pixel) (bytes : List Byte),
    encodeImage m h pixels = .ok bytes →
    22 + (pixels.length + 61) / 62 ≤ bytes.length ∧ bytes.length ≤ 22 + 5 * pixels.length

/-- R189, R207: what a DECODE ends with depends on its input and `MAGIC` alone: two cores that agree on these, whatever else
they hold from earlier commands, answer the same after every number of steps. -/
def Obligations.DecodeForgetsEarlierCommands : Prop :=
  ∀ (s s' t : State) (steps : Nat),
    s.phase = .idle → s'.phase = .idle → s.host = [.writeCmd .decode] → s'.host = [.writeCmd .decode] →
    s'.config = s.config → s'.inBytes = s.inBytes → s'.inLen = s.inLen → s'.pixelCapacity = s.pixelCapacity →
    Host.Core.run Sys2Proof.core steps s = .next t →
    ∃ t', Host.Core.run Sys2Proof.core steps s' = .next t' ∧ t'.phase = t.phase ∧ result t' = result t

/-- R167, R207: the same for ENCODE, whose inputs are the header registers, the pixels and `MAGIC`. -/
def Obligations.EncodeForgetsEarlierCommands : Prop :=
  ∀ (s s' t : State) (steps : Nat),
    s.phase = .idle → s'.phase = .idle → s.host = [.writeCmd .encode] → s'.host = [.writeCmd .encode] →
    s'.config = s.config → imageHeader s' = imageHeader s → s'.inPixels = s.inPixels → s'.inLen = s.inLen →
    s'.outCapacity = s.outCapacity →
    Host.Core.run Sys2Proof.core steps s = .next t →
    ∃ t', Host.Core.run Sys2Proof.core steps s' = .next t' ∧ t'.phase = t.phase ∧ result t' = result t
end

