-- ==== Sys2Proof/Laws/Arithmetic.lean ====
section
/-! SUPPORT. One spec lemma per arithmetic function of Machine/Operands.lean: wrap8, s8, delta, addDelta, hash. -/

namespace Sys2Proof.Machine

theorem wrap8_toNat (x : Int) : ((wrap8 x).toNat : Int) = x % 256 := by
  simp only [wrap8, BitVec.toNat_ofInt]
  omega

theorem s8_eq_toInt (v : Byte) : s8 v = v.toInt := by
  have := v.isLt
  simp only [s8, BitVec.toInt_eq_toNat_cond]
  split <;> split <;> omega

theorem s8_range (v : Byte) : -128 ≤ s8 v ∧ s8 v ≤ 127 := by
  have := v.isLt
  unfold s8
  split <;> omega

/-- `s8` keeps the value modulo 256. -/
theorem s8_mod (v : Byte) : s8 v % 256 = (v.toNat : Int) := by
  have := v.isLt
  unfold s8
  split <;> omega

theorem delta_range (c p : Byte) : -128 ≤ delta c p ∧ delta c p ≤ 127 := s8_range _

theorem delta_mod (c p : Byte) : delta c p % 256 = ((c.toNat : Int) - p.toNat) % 256 := by
  rw [delta, s8_mod, wrap8_toNat]

theorem addDelta_toNat (c : Byte) (d : Int) : ((addDelta c d).toNat : Int) = ((c.toNat : Int) + d) % 256 :=
  wrap8_toNat _

/-- Adding a channel's delta gives the channel back. -/
theorem addDelta_delta (c p : Byte) : addDelta p (delta c p) = c := by
  have h := addDelta_toNat p (delta c p)
  have hm := delta_mod c p
  have := c.isLt
  apply BitVec.eq_of_toNat_eq
  omega

/-- A zero delta is equality of channels. -/
theorem delta_eq_zero (c p : Byte) : delta c p = 0 ↔ c = p := by
  constructor
  · intro h
    have := addDelta_delta c p
    rw [h] at this
    rw [← this]
    apply BitVec.eq_of_toNat_eq
    have := addDelta_toNat p 0
    have := p.isLt
    omega
  · rintro rfl
    simp [delta, s8, wrap8]

theorem hash_toNat (p : Pixel) : (hash p).toNat = slotNumber p := by
  simp [hash, slotNumber]

theorem hash_zero : hash Pixel.zero = 0#6 := by decide

theorem hash_eq_iff (p : Pixel) (i : BitVec 6) : i = hash p ↔ i.toNat = slotNumber p := by
  rw [← hash_toNat]
  exact BitVec.toNat_inj.symm

end Sys2Proof.Machine
end

