-- ==== Sys2Proof/Laws/State.lean ====
section
/-! SUPPORT. One lemma per field of State per named update, true by rfl: no later proof unfolds an update. -/

namespace Sys2Proof.Machine

variable (s : State)

/-! ### raise -/

@[simp] theorem raise_config (e : Failure) : (raise e s).config = s.config := rfl
@[simp] theorem raise_phase (e : Failure) : (raise e s).phase = .failed := rfl
@[simp] theorem raise_cmd (e : Failure) : (raise e s).cmd = s.cmd := rfl
@[simp] theorem raise_hdrWidth (e : Failure) : (raise e s).hdrWidth = s.hdrWidth := rfl
@[simp] theorem raise_hdrHeight (e : Failure) : (raise e s).hdrHeight = s.hdrHeight := rfl
@[simp] theorem raise_hdrChannels (e : Failure) : (raise e s).hdrChannels = s.hdrChannels := rfl
@[simp] theorem raise_hdrColorspace (e : Failure) : (raise e s).hdrColorspace = s.hdrColorspace := rfl
@[simp] theorem raise_inLen (e : Failure) : (raise e s).inLen = s.inLen := rfl
@[simp] theorem raise_outLen (e : Failure) : (raise e s).outLen = s.outLen := rfl
@[simp] theorem raise_status (e : Failure) : (raise e s).status = .failure e := rfl
@[simp] theorem raise_prev (e : Failure) : (raise e s).prev = s.prev := rfl
@[simp] theorem raise_run (e : Failure) : (raise e s).run = s.run := rfl
@[simp] theorem raise_cache (e : Failure) : (raise e s).cache = s.cache := rfl
@[simp] theorem raise_k (e : Failure) : (raise e s).k = s.k := rfl
@[simp] theorem raise_pos (e : Failure) : (raise e s).pos = s.pos := rfl
@[simp] theorem raise_count (e : Failure) : (raise e s).count = s.count := rfl
@[simp] theorem raise_n (e : Failure) : (raise e s).n = s.n := rfl
@[simp] theorem raise_inPixels (e : Failure) : (raise e s).inPixels = s.inPixels := rfl
@[simp] theorem raise_outBytes (e : Failure) : (raise e s).outBytes = s.outBytes := rfl
@[simp] theorem raise_inBytes (e : Failure) : (raise e s).inBytes = s.inBytes := rfl
@[simp] theorem raise_outPixels (e : Failure) : (raise e s).outPixels = s.outPixels := rfl
@[simp] theorem raise_outCapacity (e : Failure) : (raise e s).outCapacity = s.outCapacity := rfl
@[simp] theorem raise_pixelCapacity (e : Failure) : (raise e s).pixelCapacity = s.pixelCapacity := rfl
@[simp] theorem raise_host (e : Failure) : (raise e s).host = s.host := rfl
@[simp] theorem raise_freeCount (e : Failure) : (raise e s).freeCount = s.freeCount := rfl

/-! ### succeed -/

@[simp] theorem succeed_config (l : Nat) : (succeed l s).config = s.config := rfl
@[simp] theorem succeed_phase (l : Nat) : (succeed l s).phase = .done := rfl
@[simp] theorem succeed_cmd (l : Nat) : (succeed l s).cmd = s.cmd := rfl
@[simp] theorem succeed_hdrWidth (l : Nat) : (succeed l s).hdrWidth = s.hdrWidth := rfl
@[simp] theorem succeed_hdrHeight (l : Nat) : (succeed l s).hdrHeight = s.hdrHeight := rfl
@[simp] theorem succeed_hdrChannels (l : Nat) : (succeed l s).hdrChannels = s.hdrChannels := rfl
@[simp] theorem succeed_hdrColorspace (l : Nat) : (succeed l s).hdrColorspace = s.hdrColorspace := rfl
@[simp] theorem succeed_inLen (l : Nat) : (succeed l s).inLen = s.inLen := rfl
@[simp] theorem succeed_outLen (l : Nat) : (succeed l s).outLen = l := rfl
@[simp] theorem succeed_status (l : Nat) : (succeed l s).status = .ok := rfl
@[simp] theorem succeed_prev (l : Nat) : (succeed l s).prev = s.prev := rfl
@[simp] theorem succeed_run (l : Nat) : (succeed l s).run = s.run := rfl
@[simp] theorem succeed_cache (l : Nat) : (succeed l s).cache = s.cache := rfl
@[simp] theorem succeed_k (l : Nat) : (succeed l s).k = s.k := rfl
@[simp] theorem succeed_pos (l : Nat) : (succeed l s).pos = s.pos := rfl
@[simp] theorem succeed_count (l : Nat) : (succeed l s).count = s.count := rfl
@[simp] theorem succeed_n (l : Nat) : (succeed l s).n = s.n := rfl
@[simp] theorem succeed_inPixels (l : Nat) : (succeed l s).inPixels = s.inPixels := rfl
@[simp] theorem succeed_outBytes (l : Nat) : (succeed l s).outBytes = s.outBytes := rfl
@[simp] theorem succeed_inBytes (l : Nat) : (succeed l s).inBytes = s.inBytes := rfl
@[simp] theorem succeed_outPixels (l : Nat) : (succeed l s).outPixels = s.outPixels := rfl
@[simp] theorem succeed_outCapacity (l : Nat) : (succeed l s).outCapacity = s.outCapacity := rfl
@[simp] theorem succeed_pixelCapacity (l : Nat) : (succeed l s).pixelCapacity = s.pixelCapacity := rfl
@[simp] theorem succeed_host (l : Nat) : (succeed l s).host = s.host := rfl
@[simp] theorem succeed_freeCount (l : Nat) : (succeed l s).freeCount = s.freeCount := rfl

/-! ### setPhase -/

@[simp] theorem setPhase_config (p : Phase) : (setPhase p s).config = s.config := rfl
@[simp] theorem setPhase_phase (p : Phase) : (setPhase p s).phase = p := rfl
@[simp] theorem setPhase_cmd (p : Phase) : (setPhase p s).cmd = s.cmd := rfl
@[simp] theorem setPhase_hdrWidth (p : Phase) : (setPhase p s).hdrWidth = s.hdrWidth := rfl
@[simp] theorem setPhase_hdrHeight (p : Phase) : (setPhase p s).hdrHeight = s.hdrHeight := rfl
@[simp] theorem setPhase_hdrChannels (p : Phase) : (setPhase p s).hdrChannels = s.hdrChannels := rfl
@[simp] theorem setPhase_hdrColorspace (p : Phase) : (setPhase p s).hdrColorspace = s.hdrColorspace := rfl
@[simp] theorem setPhase_inLen (p : Phase) : (setPhase p s).inLen = s.inLen := rfl
@[simp] theorem setPhase_outLen (p : Phase) : (setPhase p s).outLen = s.outLen := rfl
@[simp] theorem setPhase_status (p : Phase) : (setPhase p s).status = s.status := rfl
@[simp] theorem setPhase_prev (p : Phase) : (setPhase p s).prev = s.prev := rfl
@[simp] theorem setPhase_run (p : Phase) : (setPhase p s).run = s.run := rfl
@[simp] theorem setPhase_cache (p : Phase) : (setPhase p s).cache = s.cache := rfl
@[simp] theorem setPhase_k (p : Phase) : (setPhase p s).k = s.k := rfl
@[simp] theorem setPhase_pos (p : Phase) : (setPhase p s).pos = s.pos := rfl
@[simp] theorem setPhase_count (p : Phase) : (setPhase p s).count = s.count := rfl
@[simp] theorem setPhase_n (p : Phase) : (setPhase p s).n = s.n := rfl
@[simp] theorem setPhase_inPixels (p : Phase) : (setPhase p s).inPixels = s.inPixels := rfl
@[simp] theorem setPhase_outBytes (p : Phase) : (setPhase p s).outBytes = s.outBytes := rfl
@[simp] theorem setPhase_inBytes (p : Phase) : (setPhase p s).inBytes = s.inBytes := rfl
@[simp] theorem setPhase_outPixels (p : Phase) : (setPhase p s).outPixels = s.outPixels := rfl
@[simp] theorem setPhase_outCapacity (p : Phase) : (setPhase p s).outCapacity = s.outCapacity := rfl
@[simp] theorem setPhase_pixelCapacity (p : Phase) : (setPhase p s).pixelCapacity = s.pixelCapacity := rfl
@[simp] theorem setPhase_host (p : Phase) : (setPhase p s).host = s.host := rfl
@[simp] theorem setPhase_freeCount (p : Phase) : (setPhase p s).freeCount = s.freeCount := rfl

/-! ### discardWork -/

@[simp] theorem discardWork_config : (discardWork s).config = s.config := rfl
@[simp] theorem discardWork_phase : (discardWork s).phase = s.phase := rfl
@[simp] theorem discardWork_cmd : (discardWork s).cmd = s.cmd := rfl
@[simp] theorem discardWork_hdrWidth : (discardWork s).hdrWidth = s.hdrWidth := rfl
@[simp] theorem discardWork_hdrHeight : (discardWork s).hdrHeight = s.hdrHeight := rfl
@[simp] theorem discardWork_hdrChannels : (discardWork s).hdrChannels = s.hdrChannels := rfl
@[simp] theorem discardWork_hdrColorspace : (discardWork s).hdrColorspace = s.hdrColorspace := rfl
@[simp] theorem discardWork_inLen : (discardWork s).inLen = s.inLen := rfl
@[simp] theorem discardWork_outLen : (discardWork s).outLen = s.outLen := rfl
@[simp] theorem discardWork_status : (discardWork s).status = s.status := rfl
@[simp] theorem discardWork_prev : (discardWork s).prev = Config.freePrev s.freeCount := rfl
@[simp] theorem discardWork_run : (discardWork s).run = (Config.freeRun s.freeCount).val := rfl
@[simp] theorem discardWork_cache : (discardWork s).cache = Config.freeCache s.freeCount := rfl
@[simp] theorem discardWork_k : (discardWork s).k = Config.freeInputCursor s.freeCount := rfl
@[simp] theorem discardWork_pos : (discardWork s).pos = Config.freeStreamCursor s.freeCount := rfl
@[simp] theorem discardWork_count : (discardWork s).count = Config.freePixelCount s.freeCount := rfl
@[simp] theorem discardWork_n : (discardWork s).n = Config.freeTarget s.freeCount := rfl
@[simp] theorem discardWork_inPixels : (discardWork s).inPixels = s.inPixels := rfl
@[simp] theorem discardWork_outBytes : (discardWork s).outBytes = Config.freeBytes s.freeCount := rfl
@[simp] theorem discardWork_inBytes : (discardWork s).inBytes = s.inBytes := rfl
@[simp] theorem discardWork_outPixels : (discardWork s).outPixels = Config.freePixels s.freeCount := rfl
@[simp] theorem discardWork_outCapacity : (discardWork s).outCapacity = s.outCapacity := rfl
@[simp] theorem discardWork_pixelCapacity : (discardWork s).pixelCapacity = s.pixelCapacity := rfl
@[simp] theorem discardWork_host : (discardWork s).host = s.host := rfl
@[simp] theorem discardWork_freeCount : (discardWork s).freeCount = s.freeCount := rfl

/-! ### discardLength -/

@[simp] theorem discardLength_config : (discardLength s).config = s.config := rfl
@[simp] theorem discardLength_phase : (discardLength s).phase = s.phase := rfl
@[simp] theorem discardLength_cmd : (discardLength s).cmd = s.cmd := rfl
@[simp] theorem discardLength_hdrWidth : (discardLength s).hdrWidth = s.hdrWidth := rfl
@[simp] theorem discardLength_hdrHeight : (discardLength s).hdrHeight = s.hdrHeight := rfl
@[simp] theorem discardLength_hdrChannels : (discardLength s).hdrChannels = s.hdrChannels := rfl
@[simp] theorem discardLength_hdrColorspace : (discardLength s).hdrColorspace = s.hdrColorspace := rfl
@[simp] theorem discardLength_inLen : (discardLength s).inLen = s.inLen := rfl
@[simp] theorem discardLength_outLen : (discardLength s).outLen = Config.freeOutLen s.freeCount := rfl
@[simp] theorem discardLength_status : (discardLength s).status = s.status := rfl
@[simp] theorem discardLength_prev : (discardLength s).prev = s.prev := rfl
@[simp] theorem discardLength_run : (discardLength s).run = s.run := rfl
@[simp] theorem discardLength_cache : (discardLength s).cache = s.cache := rfl
@[simp] theorem discardLength_k : (discardLength s).k = s.k := rfl
@[simp] theorem discardLength_pos : (discardLength s).pos = s.pos := rfl
@[simp] theorem discardLength_count : (discardLength s).count = s.count := rfl
@[simp] theorem discardLength_n : (discardLength s).n = s.n := rfl
@[simp] theorem discardLength_inPixels : (discardLength s).inPixels = s.inPixels := rfl
@[simp] theorem discardLength_outBytes : (discardLength s).outBytes = s.outBytes := rfl
@[simp] theorem discardLength_inBytes : (discardLength s).inBytes = s.inBytes := rfl
@[simp] theorem discardLength_outPixels : (discardLength s).outPixels = s.outPixels := rfl
@[simp] theorem discardLength_outCapacity : (discardLength s).outCapacity = s.outCapacity := rfl
@[simp] theorem discardLength_pixelCapacity : (discardLength s).pixelCapacity = s.pixelCapacity := rfl
@[simp] theorem discardLength_host : (discardLength s).host = s.host := rfl
@[simp] theorem discardLength_freeCount : (discardLength s).freeCount = s.freeCount := rfl

/-! ### countDraw -/

@[simp] theorem countDraw_config : (countDraw s).config = s.config := rfl
@[simp] theorem countDraw_phase : (countDraw s).phase = s.phase := rfl
@[simp] theorem countDraw_cmd : (countDraw s).cmd = s.cmd := rfl
@[simp] theorem countDraw_hdrWidth : (countDraw s).hdrWidth = s.hdrWidth := rfl
@[simp] theorem countDraw_hdrHeight : (countDraw s).hdrHeight = s.hdrHeight := rfl
@[simp] theorem countDraw_hdrChannels : (countDraw s).hdrChannels = s.hdrChannels := rfl
@[simp] theorem countDraw_hdrColorspace : (countDraw s).hdrColorspace = s.hdrColorspace := rfl
@[simp] theorem countDraw_inLen : (countDraw s).inLen = s.inLen := rfl
@[simp] theorem countDraw_outLen : (countDraw s).outLen = s.outLen := rfl
@[simp] theorem countDraw_status : (countDraw s).status = s.status := rfl
@[simp] theorem countDraw_prev : (countDraw s).prev = s.prev := rfl
@[simp] theorem countDraw_run : (countDraw s).run = s.run := rfl
@[simp] theorem countDraw_cache : (countDraw s).cache = s.cache := rfl
@[simp] theorem countDraw_k : (countDraw s).k = s.k := rfl
@[simp] theorem countDraw_pos : (countDraw s).pos = s.pos := rfl
@[simp] theorem countDraw_count : (countDraw s).count = s.count := rfl
@[simp] theorem countDraw_n : (countDraw s).n = s.n := rfl
@[simp] theorem countDraw_inPixels : (countDraw s).inPixels = s.inPixels := rfl
@[simp] theorem countDraw_outBytes : (countDraw s).outBytes = s.outBytes := rfl
@[simp] theorem countDraw_inBytes : (countDraw s).inBytes = s.inBytes := rfl
@[simp] theorem countDraw_outPixels : (countDraw s).outPixels = s.outPixels := rfl
@[simp] theorem countDraw_outCapacity : (countDraw s).outCapacity = s.outCapacity := rfl
@[simp] theorem countDraw_pixelCapacity : (countDraw s).pixelCapacity = s.pixelCapacity := rfl
@[simp] theorem countDraw_host : (countDraw s).host = s.host := rfl
@[simp] theorem countDraw_freeCount : (countDraw s).freeCount = s.freeCount + 1 := rfl

/-! ### store -/

@[simp] theorem store_config (i : BitVec 6) (p : Pixel) : (store i p s).config = s.config := rfl
@[simp] theorem store_phase (i : BitVec 6) (p : Pixel) : (store i p s).phase = s.phase := rfl
@[simp] theorem store_cmd (i : BitVec 6) (p : Pixel) : (store i p s).cmd = s.cmd := rfl
@[simp] theorem store_hdrWidth (i : BitVec 6) (p : Pixel) : (store i p s).hdrWidth = s.hdrWidth := rfl
@[simp] theorem store_hdrHeight (i : BitVec 6) (p : Pixel) : (store i p s).hdrHeight = s.hdrHeight := rfl
@[simp] theorem store_hdrChannels (i : BitVec 6) (p : Pixel) : (store i p s).hdrChannels = s.hdrChannels := rfl
@[simp] theorem store_hdrColorspace (i : BitVec 6) (p : Pixel) : (store i p s).hdrColorspace = s.hdrColorspace := rfl
@[simp] theorem store_inLen (i : BitVec 6) (p : Pixel) : (store i p s).inLen = s.inLen := rfl
@[simp] theorem store_outLen (i : BitVec 6) (p : Pixel) : (store i p s).outLen = s.outLen := rfl
@[simp] theorem store_status (i : BitVec 6) (p : Pixel) : (store i p s).status = s.status := rfl
@[simp] theorem store_prev (i : BitVec 6) (p : Pixel) : (store i p s).prev = s.prev := rfl
@[simp] theorem store_run (i : BitVec 6) (p : Pixel) : (store i p s).run = s.run := rfl
@[simp] theorem store_cache (i : BitVec 6) (p : Pixel) : (store i p s).cache = cacheSet s.cache i p := rfl
@[simp] theorem store_k (i : BitVec 6) (p : Pixel) : (store i p s).k = s.k := rfl
@[simp] theorem store_pos (i : BitVec 6) (p : Pixel) : (store i p s).pos = s.pos := rfl
@[simp] theorem store_count (i : BitVec 6) (p : Pixel) : (store i p s).count = s.count := rfl
@[simp] theorem store_n (i : BitVec 6) (p : Pixel) : (store i p s).n = s.n := rfl
@[simp] theorem store_inPixels (i : BitVec 6) (p : Pixel) : (store i p s).inPixels = s.inPixels := rfl
@[simp] theorem store_outBytes (i : BitVec 6) (p : Pixel) : (store i p s).outBytes = s.outBytes := rfl
@[simp] theorem store_inBytes (i : BitVec 6) (p : Pixel) : (store i p s).inBytes = s.inBytes := rfl
@[simp] theorem store_outPixels (i : BitVec 6) (p : Pixel) : (store i p s).outPixels = s.outPixels := rfl
@[simp] theorem store_outCapacity (i : BitVec 6) (p : Pixel) : (store i p s).outCapacity = s.outCapacity := rfl
@[simp] theorem store_pixelCapacity (i : BitVec 6) (p : Pixel) : (store i p s).pixelCapacity = s.pixelCapacity := rfl
@[simp] theorem store_host (i : BitVec 6) (p : Pixel) : (store i p s).host = s.host := rfl
@[simp] theorem store_freeCount (i : BitVec 6) (p : Pixel) : (store i p s).freeCount = s.freeCount := rfl

/-! ### storePixel -/

@[simp] theorem storePixel_config (p : Pixel) : (storePixel p s).config = s.config := rfl
@[simp] theorem storePixel_phase (p : Pixel) : (storePixel p s).phase = s.phase := rfl
@[simp] theorem storePixel_cmd (p : Pixel) : (storePixel p s).cmd = s.cmd := rfl
@[simp] theorem storePixel_hdrWidth (p : Pixel) : (storePixel p s).hdrWidth = s.hdrWidth := rfl
@[simp] theorem storePixel_hdrHeight (p : Pixel) : (storePixel p s).hdrHeight = s.hdrHeight := rfl
@[simp] theorem storePixel_hdrChannels (p : Pixel) : (storePixel p s).hdrChannels = s.hdrChannels := rfl
@[simp] theorem storePixel_hdrColorspace (p : Pixel) : (storePixel p s).hdrColorspace = s.hdrColorspace := rfl
@[simp] theorem storePixel_inLen (p : Pixel) : (storePixel p s).inLen = s.inLen := rfl
@[simp] theorem storePixel_outLen (p : Pixel) : (storePixel p s).outLen = s.outLen := rfl
@[simp] theorem storePixel_status (p : Pixel) : (storePixel p s).status = s.status := rfl
@[simp] theorem storePixel_prev (p : Pixel) : (storePixel p s).prev = s.prev := rfl
@[simp] theorem storePixel_run (p : Pixel) : (storePixel p s).run = s.run := rfl
@[simp] theorem storePixel_cache (p : Pixel) : (storePixel p s).cache = cacheSet s.cache (hash p) p := rfl
@[simp] theorem storePixel_k (p : Pixel) : (storePixel p s).k = s.k := rfl
@[simp] theorem storePixel_pos (p : Pixel) : (storePixel p s).pos = s.pos := rfl
@[simp] theorem storePixel_count (p : Pixel) : (storePixel p s).count = s.count := rfl
@[simp] theorem storePixel_n (p : Pixel) : (storePixel p s).n = s.n := rfl
@[simp] theorem storePixel_inPixels (p : Pixel) : (storePixel p s).inPixels = s.inPixels := rfl
@[simp] theorem storePixel_outBytes (p : Pixel) : (storePixel p s).outBytes = s.outBytes := rfl
@[simp] theorem storePixel_inBytes (p : Pixel) : (storePixel p s).inBytes = s.inBytes := rfl
@[simp] theorem storePixel_outPixels (p : Pixel) : (storePixel p s).outPixels = s.outPixels := rfl
@[simp] theorem storePixel_outCapacity (p : Pixel) : (storePixel p s).outCapacity = s.outCapacity := rfl
@[simp] theorem storePixel_pixelCapacity (p : Pixel) : (storePixel p s).pixelCapacity = s.pixelCapacity := rfl
@[simp] theorem storePixel_host (p : Pixel) : (storePixel p s).host = s.host := rfl
@[simp] theorem storePixel_freeCount (p : Pixel) : (storePixel p s).freeCount = s.freeCount := rfl

/-! ### emit -/

@[simp] theorem emit_config (b : List Byte) : (emit b s).config = s.config := rfl
@[simp] theorem emit_phase (b : List Byte) : (emit b s).phase = s.phase := rfl
@[simp] theorem emit_cmd (b : List Byte) : (emit b s).cmd = s.cmd := rfl
@[simp] theorem emit_hdrWidth (b : List Byte) : (emit b s).hdrWidth = s.hdrWidth := rfl
@[simp] theorem emit_hdrHeight (b : List Byte) : (emit b s).hdrHeight = s.hdrHeight := rfl
@[simp] theorem emit_hdrChannels (b : List Byte) : (emit b s).hdrChannels = s.hdrChannels := rfl
@[simp] theorem emit_hdrColorspace (b : List Byte) : (emit b s).hdrColorspace = s.hdrColorspace := rfl
@[simp] theorem emit_inLen (b : List Byte) : (emit b s).inLen = s.inLen := rfl
@[simp] theorem emit_outLen (b : List Byte) : (emit b s).outLen = s.outLen := rfl
@[simp] theorem emit_status (b : List Byte) : (emit b s).status = s.status := rfl
@[simp] theorem emit_prev (b : List Byte) : (emit b s).prev = s.prev := rfl
@[simp] theorem emit_run (b : List Byte) : (emit b s).run = s.run := rfl
@[simp] theorem emit_cache (b : List Byte) : (emit b s).cache = s.cache := rfl
@[simp] theorem emit_k (b : List Byte) : (emit b s).k = s.k := rfl
@[simp] theorem emit_pos (b : List Byte) : (emit b s).pos = s.pos := rfl
@[simp] theorem emit_count (b : List Byte) : (emit b s).count = s.count := rfl
@[simp] theorem emit_n (b : List Byte) : (emit b s).n = s.n := rfl
@[simp] theorem emit_inPixels (b : List Byte) : (emit b s).inPixels = s.inPixels := rfl
@[simp] theorem emit_outBytes (b : List Byte) : (emit b s).outBytes = s.outBytes ++ b := rfl
@[simp] theorem emit_inBytes (b : List Byte) : (emit b s).inBytes = s.inBytes := rfl
@[simp] theorem emit_outPixels (b : List Byte) : (emit b s).outPixels = s.outPixels := rfl
@[simp] theorem emit_outCapacity (b : List Byte) : (emit b s).outCapacity = s.outCapacity := rfl
@[simp] theorem emit_pixelCapacity (b : List Byte) : (emit b s).pixelCapacity = s.pixelCapacity := rfl
@[simp] theorem emit_host (b : List Byte) : (emit b s).host = s.host := rfl
@[simp] theorem emit_freeCount (b : List Byte) : (emit b s).freeCount = s.freeCount := rfl

/-! ### outPixel -/

@[simp] theorem outPixel_config (p : Pixel) : (outPixel p s).config = s.config := rfl
@[simp] theorem outPixel_phase (p : Pixel) : (outPixel p s).phase = s.phase := rfl
@[simp] theorem outPixel_cmd (p : Pixel) : (outPixel p s).cmd = s.cmd := rfl
@[simp] theorem outPixel_hdrWidth (p : Pixel) : (outPixel p s).hdrWidth = s.hdrWidth := rfl
@[simp] theorem outPixel_hdrHeight (p : Pixel) : (outPixel p s).hdrHeight = s.hdrHeight := rfl
@[simp] theorem outPixel_hdrChannels (p : Pixel) : (outPixel p s).hdrChannels = s.hdrChannels := rfl
@[simp] theorem outPixel_hdrColorspace (p : Pixel) : (outPixel p s).hdrColorspace = s.hdrColorspace := rfl
@[simp] theorem outPixel_inLen (p : Pixel) : (outPixel p s).inLen = s.inLen := rfl
@[simp] theorem outPixel_outLen (p : Pixel) : (outPixel p s).outLen = s.outLen := rfl
@[simp] theorem outPixel_status (p : Pixel) : (outPixel p s).status = s.status := rfl
@[simp] theorem outPixel_prev (p : Pixel) : (outPixel p s).prev = p := rfl
@[simp] theorem outPixel_run (p : Pixel) : (outPixel p s).run = s.run := rfl
@[simp] theorem outPixel_cache (p : Pixel) : (outPixel p s).cache = s.cache := rfl
@[simp] theorem outPixel_k (p : Pixel) : (outPixel p s).k = s.k := rfl
@[simp] theorem outPixel_pos (p : Pixel) : (outPixel p s).pos = s.pos := rfl
@[simp] theorem outPixel_count (p : Pixel) : (outPixel p s).count = s.count + 1 := rfl
@[simp] theorem outPixel_n (p : Pixel) : (outPixel p s).n = s.n := rfl
@[simp] theorem outPixel_inPixels (p : Pixel) : (outPixel p s).inPixels = s.inPixels := rfl
@[simp] theorem outPixel_outBytes (p : Pixel) : (outPixel p s).outBytes = s.outBytes := rfl
@[simp] theorem outPixel_inBytes (p : Pixel) : (outPixel p s).inBytes = s.inBytes := rfl
@[simp] theorem outPixel_outPixels (p : Pixel) : (outPixel p s).outPixels = s.outPixels ++ [p] := rfl
@[simp] theorem outPixel_outCapacity (p : Pixel) : (outPixel p s).outCapacity = s.outCapacity := rfl
@[simp] theorem outPixel_pixelCapacity (p : Pixel) : (outPixel p s).pixelCapacity = s.pixelCapacity := rfl
@[simp] theorem outPixel_host (p : Pixel) : (outPixel p s).host = s.host := rfl
@[simp] theorem outPixel_freeCount (p : Pixel) : (outPixel p s).freeCount = s.freeCount := rfl

/-! ### outRun -/

@[simp] theorem outRun_config (m : Nat) : (outRun m s).config = s.config := rfl
@[simp] theorem outRun_phase (m : Nat) : (outRun m s).phase = s.phase := rfl
@[simp] theorem outRun_cmd (m : Nat) : (outRun m s).cmd = s.cmd := rfl
@[simp] theorem outRun_hdrWidth (m : Nat) : (outRun m s).hdrWidth = s.hdrWidth := rfl
@[simp] theorem outRun_hdrHeight (m : Nat) : (outRun m s).hdrHeight = s.hdrHeight := rfl
@[simp] theorem outRun_hdrChannels (m : Nat) : (outRun m s).hdrChannels = s.hdrChannels := rfl
@[simp] theorem outRun_hdrColorspace (m : Nat) : (outRun m s).hdrColorspace = s.hdrColorspace := rfl
@[simp] theorem outRun_inLen (m : Nat) : (outRun m s).inLen = s.inLen := rfl
@[simp] theorem outRun_outLen (m : Nat) : (outRun m s).outLen = s.outLen := rfl
@[simp] theorem outRun_status (m : Nat) : (outRun m s).status = s.status := rfl
@[simp] theorem outRun_prev (m : Nat) : (outRun m s).prev = s.prev := rfl
@[simp] theorem outRun_run (m : Nat) : (outRun m s).run = s.run := rfl
@[simp] theorem outRun_cache (m : Nat) : (outRun m s).cache = s.cache := rfl
@[simp] theorem outRun_k (m : Nat) : (outRun m s).k = s.k := rfl
@[simp] theorem outRun_pos (m : Nat) : (outRun m s).pos = s.pos := rfl
@[simp] theorem outRun_count (m : Nat) : (outRun m s).count = s.count + m := rfl
@[simp] theorem outRun_n (m : Nat) : (outRun m s).n = s.n := rfl
@[simp] theorem outRun_inPixels (m : Nat) : (outRun m s).inPixels = s.inPixels := rfl
@[simp] theorem outRun_outBytes (m : Nat) : (outRun m s).outBytes = s.outBytes := rfl
@[simp] theorem outRun_inBytes (m : Nat) : (outRun m s).inBytes = s.inBytes := rfl
@[simp] theorem outRun_outPixels (m : Nat) : (outRun m s).outPixels = s.outPixels ++ List.replicate m s.prev := rfl
@[simp] theorem outRun_outCapacity (m : Nat) : (outRun m s).outCapacity = s.outCapacity := rfl
@[simp] theorem outRun_pixelCapacity (m : Nat) : (outRun m s).pixelCapacity = s.pixelCapacity := rfl
@[simp] theorem outRun_host (m : Nat) : (outRun m s).host = s.host := rfl
@[simp] theorem outRun_freeCount (m : Nat) : (outRun m s).freeCount = s.freeCount := rfl

/-! ### advance -/

@[simp] theorem advance_config (l : Nat) : (advance l s).config = s.config := rfl
@[simp] theorem advance_phase (l : Nat) : (advance l s).phase = s.phase := rfl
@[simp] theorem advance_cmd (l : Nat) : (advance l s).cmd = s.cmd := rfl
@[simp] theorem advance_hdrWidth (l : Nat) : (advance l s).hdrWidth = s.hdrWidth := rfl
@[simp] theorem advance_hdrHeight (l : Nat) : (advance l s).hdrHeight = s.hdrHeight := rfl
@[simp] theorem advance_hdrChannels (l : Nat) : (advance l s).hdrChannels = s.hdrChannels := rfl
@[simp] theorem advance_hdrColorspace (l : Nat) : (advance l s).hdrColorspace = s.hdrColorspace := rfl
@[simp] theorem advance_inLen (l : Nat) : (advance l s).inLen = s.inLen := rfl
@[simp] theorem advance_outLen (l : Nat) : (advance l s).outLen = s.outLen := rfl
@[simp] theorem advance_status (l : Nat) : (advance l s).status = s.status := rfl
@[simp] theorem advance_prev (l : Nat) : (advance l s).prev = s.prev := rfl
@[simp] theorem advance_run (l : Nat) : (advance l s).run = s.run := rfl
@[simp] theorem advance_cache (l : Nat) : (advance l s).cache = s.cache := rfl
@[simp] theorem advance_k (l : Nat) : (advance l s).k = s.k := rfl
@[simp] theorem advance_pos (l : Nat) : (advance l s).pos = s.pos + l := rfl
@[simp] theorem advance_count (l : Nat) : (advance l s).count = s.count := rfl
@[simp] theorem advance_n (l : Nat) : (advance l s).n = s.n := rfl
@[simp] theorem advance_inPixels (l : Nat) : (advance l s).inPixels = s.inPixels := rfl
@[simp] theorem advance_outBytes (l : Nat) : (advance l s).outBytes = s.outBytes := rfl
@[simp] theorem advance_inBytes (l : Nat) : (advance l s).inBytes = s.inBytes := rfl
@[simp] theorem advance_outPixels (l : Nat) : (advance l s).outPixels = s.outPixels := rfl
@[simp] theorem advance_outCapacity (l : Nat) : (advance l s).outCapacity = s.outCapacity := rfl
@[simp] theorem advance_pixelCapacity (l : Nat) : (advance l s).pixelCapacity = s.pixelCapacity := rfl
@[simp] theorem advance_host (l : Nat) : (advance l s).host = s.host := rfl
@[simp] theorem advance_freeCount (l : Nat) : (advance l s).freeCount = s.freeCount := rfl

/-! ### setPos -/

@[simp] theorem setPos_config (p : Nat) : (setPos p s).config = s.config := rfl
@[simp] theorem setPos_phase (p : Nat) : (setPos p s).phase = s.phase := rfl
@[simp] theorem setPos_cmd (p : Nat) : (setPos p s).cmd = s.cmd := rfl
@[simp] theorem setPos_hdrWidth (p : Nat) : (setPos p s).hdrWidth = s.hdrWidth := rfl
@[simp] theorem setPos_hdrHeight (p : Nat) : (setPos p s).hdrHeight = s.hdrHeight := rfl
@[simp] theorem setPos_hdrChannels (p : Nat) : (setPos p s).hdrChannels = s.hdrChannels := rfl
@[simp] theorem setPos_hdrColorspace (p : Nat) : (setPos p s).hdrColorspace = s.hdrColorspace := rfl
@[simp] theorem setPos_inLen (p : Nat) : (setPos p s).inLen = s.inLen := rfl
@[simp] theorem setPos_outLen (p : Nat) : (setPos p s).outLen = s.outLen := rfl
@[simp] theorem setPos_status (p : Nat) : (setPos p s).status = s.status := rfl
@[simp] theorem setPos_prev (p : Nat) : (setPos p s).prev = s.prev := rfl
@[simp] theorem setPos_run (p : Nat) : (setPos p s).run = s.run := rfl
@[simp] theorem setPos_cache (p : Nat) : (setPos p s).cache = s.cache := rfl
@[simp] theorem setPos_k (p : Nat) : (setPos p s).k = s.k := rfl
@[simp] theorem setPos_pos (p : Nat) : (setPos p s).pos = p := rfl
@[simp] theorem setPos_count (p : Nat) : (setPos p s).count = s.count := rfl
@[simp] theorem setPos_n (p : Nat) : (setPos p s).n = s.n := rfl
@[simp] theorem setPos_inPixels (p : Nat) : (setPos p s).inPixels = s.inPixels := rfl
@[simp] theorem setPos_outBytes (p : Nat) : (setPos p s).outBytes = s.outBytes := rfl
@[simp] theorem setPos_inBytes (p : Nat) : (setPos p s).inBytes = s.inBytes := rfl
@[simp] theorem setPos_outPixels (p : Nat) : (setPos p s).outPixels = s.outPixels := rfl
@[simp] theorem setPos_outCapacity (p : Nat) : (setPos p s).outCapacity = s.outCapacity := rfl
@[simp] theorem setPos_pixelCapacity (p : Nat) : (setPos p s).pixelCapacity = s.pixelCapacity := rfl
@[simp] theorem setPos_host (p : Nat) : (setPos p s).host = s.host := rfl
@[simp] theorem setPos_freeCount (p : Nat) : (setPos p s).freeCount = s.freeCount := rfl

/-! ### setRun -/

@[simp] theorem setRun_config (r : Nat) : (setRun r s).config = s.config := rfl
@[simp] theorem setRun_phase (r : Nat) : (setRun r s).phase = s.phase := rfl
@[simp] theorem setRun_cmd (r : Nat) : (setRun r s).cmd = s.cmd := rfl
@[simp] theorem setRun_hdrWidth (r : Nat) : (setRun r s).hdrWidth = s.hdrWidth := rfl
@[simp] theorem setRun_hdrHeight (r : Nat) : (setRun r s).hdrHeight = s.hdrHeight := rfl
@[simp] theorem setRun_hdrChannels (r : Nat) : (setRun r s).hdrChannels = s.hdrChannels := rfl
@[simp] theorem setRun_hdrColorspace (r : Nat) : (setRun r s).hdrColorspace = s.hdrColorspace := rfl
@[simp] theorem setRun_inLen (r : Nat) : (setRun r s).inLen = s.inLen := rfl
@[simp] theorem setRun_outLen (r : Nat) : (setRun r s).outLen = s.outLen := rfl
@[simp] theorem setRun_status (r : Nat) : (setRun r s).status = s.status := rfl
@[simp] theorem setRun_prev (r : Nat) : (setRun r s).prev = s.prev := rfl
@[simp] theorem setRun_run (r : Nat) : (setRun r s).run = r := rfl
@[simp] theorem setRun_cache (r : Nat) : (setRun r s).cache = s.cache := rfl
@[simp] theorem setRun_k (r : Nat) : (setRun r s).k = s.k := rfl
@[simp] theorem setRun_pos (r : Nat) : (setRun r s).pos = s.pos := rfl
@[simp] theorem setRun_count (r : Nat) : (setRun r s).count = s.count := rfl
@[simp] theorem setRun_n (r : Nat) : (setRun r s).n = s.n := rfl
@[simp] theorem setRun_inPixels (r : Nat) : (setRun r s).inPixels = s.inPixels := rfl
@[simp] theorem setRun_outBytes (r : Nat) : (setRun r s).outBytes = s.outBytes := rfl
@[simp] theorem setRun_inBytes (r : Nat) : (setRun r s).inBytes = s.inBytes := rfl
@[simp] theorem setRun_outPixels (r : Nat) : (setRun r s).outPixels = s.outPixels := rfl
@[simp] theorem setRun_outCapacity (r : Nat) : (setRun r s).outCapacity = s.outCapacity := rfl
@[simp] theorem setRun_pixelCapacity (r : Nat) : (setRun r s).pixelCapacity = s.pixelCapacity := rfl
@[simp] theorem setRun_host (r : Nat) : (setRun r s).host = s.host := rfl
@[simp] theorem setRun_freeCount (r : Nat) : (setRun r s).freeCount = s.freeCount := rfl

/-! ### endPixel -/

@[simp] theorem endPixel_config (p : Pixel) : (endPixel p s).config = s.config := rfl
@[simp] theorem endPixel_phase (p : Pixel) : (endPixel p s).phase = s.phase := rfl
@[simp] theorem endPixel_cmd (p : Pixel) : (endPixel p s).cmd = s.cmd := rfl
@[simp] theorem endPixel_hdrWidth (p : Pixel) : (endPixel p s).hdrWidth = s.hdrWidth := rfl
@[simp] theorem endPixel_hdrHeight (p : Pixel) : (endPixel p s).hdrHeight = s.hdrHeight := rfl
@[simp] theorem endPixel_hdrChannels (p : Pixel) : (endPixel p s).hdrChannels = s.hdrChannels := rfl
@[simp] theorem endPixel_hdrColorspace (p : Pixel) : (endPixel p s).hdrColorspace = s.hdrColorspace := rfl
@[simp] theorem endPixel_inLen (p : Pixel) : (endPixel p s).inLen = s.inLen := rfl
@[simp] theorem endPixel_outLen (p : Pixel) : (endPixel p s).outLen = s.outLen := rfl
@[simp] theorem endPixel_status (p : Pixel) : (endPixel p s).status = s.status := rfl
@[simp] theorem endPixel_prev (p : Pixel) : (endPixel p s).prev = p := rfl
@[simp] theorem endPixel_run (p : Pixel) : (endPixel p s).run = s.run := rfl
@[simp] theorem endPixel_cache (p : Pixel) : (endPixel p s).cache = s.cache := rfl
@[simp] theorem endPixel_k (p : Pixel) : (endPixel p s).k = s.k + 1 := rfl
@[simp] theorem endPixel_pos (p : Pixel) : (endPixel p s).pos = s.pos := rfl
@[simp] theorem endPixel_count (p : Pixel) : (endPixel p s).count = s.count := rfl
@[simp] theorem endPixel_n (p : Pixel) : (endPixel p s).n = s.n := rfl
@[simp] theorem endPixel_inPixels (p : Pixel) : (endPixel p s).inPixels = s.inPixels := rfl
@[simp] theorem endPixel_outBytes (p : Pixel) : (endPixel p s).outBytes = s.outBytes := rfl
@[simp] theorem endPixel_inBytes (p : Pixel) : (endPixel p s).inBytes = s.inBytes := rfl
@[simp] theorem endPixel_outPixels (p : Pixel) : (endPixel p s).outPixels = s.outPixels := rfl
@[simp] theorem endPixel_outCapacity (p : Pixel) : (endPixel p s).outCapacity = s.outCapacity := rfl
@[simp] theorem endPixel_pixelCapacity (p : Pixel) : (endPixel p s).pixelCapacity = s.pixelCapacity := rfl
@[simp] theorem endPixel_host (p : Pixel) : (endPixel p s).host = s.host := rfl
@[simp] theorem endPixel_freeCount (p : Pixel) : (endPixel p s).freeCount = s.freeCount := rfl

/-! ### resetEncode -/

@[simp] theorem resetEncode_config : (resetEncode s).config = s.config := rfl
@[simp] theorem resetEncode_phase : (resetEncode s).phase = s.phase := rfl
@[simp] theorem resetEncode_cmd : (resetEncode s).cmd = s.cmd := rfl
@[simp] theorem resetEncode_hdrWidth : (resetEncode s).hdrWidth = s.hdrWidth := rfl
@[simp] theorem resetEncode_hdrHeight : (resetEncode s).hdrHeight = s.hdrHeight := rfl
@[simp] theorem resetEncode_hdrChannels : (resetEncode s).hdrChannels = s.hdrChannels := rfl
@[simp] theorem resetEncode_hdrColorspace : (resetEncode s).hdrColorspace = s.hdrColorspace := rfl
@[simp] theorem resetEncode_inLen : (resetEncode s).inLen = s.inLen := rfl
@[simp] theorem resetEncode_outLen : (resetEncode s).outLen = s.outLen := rfl
@[simp] theorem resetEncode_status : (resetEncode s).status = s.status := rfl
@[simp] theorem resetEncode_prev : (resetEncode s).prev = Pixel.zero := rfl
@[simp] theorem resetEncode_run : (resetEncode s).run = 0 := rfl
@[simp] theorem resetEncode_cache : (resetEncode s).cache = Cache.zero := rfl
@[simp] theorem resetEncode_k : (resetEncode s).k = 0 := rfl
@[simp] theorem resetEncode_pos : (resetEncode s).pos = s.pos := rfl
@[simp] theorem resetEncode_count : (resetEncode s).count = s.count := rfl
@[simp] theorem resetEncode_n : (resetEncode s).n = s.n := rfl
@[simp] theorem resetEncode_inPixels : (resetEncode s).inPixels = s.inPixels := rfl
@[simp] theorem resetEncode_outBytes : (resetEncode s).outBytes = [] := rfl
@[simp] theorem resetEncode_inBytes : (resetEncode s).inBytes = s.inBytes := rfl
@[simp] theorem resetEncode_outPixels : (resetEncode s).outPixels = s.outPixels := rfl
@[simp] theorem resetEncode_outCapacity : (resetEncode s).outCapacity = s.outCapacity := rfl
@[simp] theorem resetEncode_pixelCapacity : (resetEncode s).pixelCapacity = s.pixelCapacity := rfl
@[simp] theorem resetEncode_host : (resetEncode s).host = s.host := rfl
@[simp] theorem resetEncode_freeCount : (resetEncode s).freeCount = s.freeCount := rfl

/-! ### resetDecode -/

@[simp] theorem resetDecode_config : (resetDecode s).config = s.config := rfl
@[simp] theorem resetDecode_phase : (resetDecode s).phase = s.phase := rfl
@[simp] theorem resetDecode_cmd : (resetDecode s).cmd = s.cmd := rfl
@[simp] theorem resetDecode_hdrWidth : (resetDecode s).hdrWidth = s.hdrWidth := rfl
@[simp] theorem resetDecode_hdrHeight : (resetDecode s).hdrHeight = s.hdrHeight := rfl
@[simp] theorem resetDecode_hdrChannels : (resetDecode s).hdrChannels = s.hdrChannels := rfl
@[simp] theorem resetDecode_hdrColorspace : (resetDecode s).hdrColorspace = s.hdrColorspace := rfl
@[simp] theorem resetDecode_inLen : (resetDecode s).inLen = s.inLen := rfl
@[simp] theorem resetDecode_outLen : (resetDecode s).outLen = s.outLen := rfl
@[simp] theorem resetDecode_status : (resetDecode s).status = s.status := rfl
@[simp] theorem resetDecode_prev : (resetDecode s).prev = Pixel.zero := rfl
@[simp] theorem resetDecode_run : (resetDecode s).run = s.run := rfl
@[simp] theorem resetDecode_cache : (resetDecode s).cache = Cache.zero := rfl
@[simp] theorem resetDecode_k : (resetDecode s).k = s.k := rfl
@[simp] theorem resetDecode_pos : (resetDecode s).pos = 0 := rfl
@[simp] theorem resetDecode_count : (resetDecode s).count = 0 := rfl
@[simp] theorem resetDecode_n : (resetDecode s).n = s.n := rfl
@[simp] theorem resetDecode_inPixels : (resetDecode s).inPixels = s.inPixels := rfl
@[simp] theorem resetDecode_outBytes : (resetDecode s).outBytes = s.outBytes := rfl
@[simp] theorem resetDecode_inBytes : (resetDecode s).inBytes = s.inBytes := rfl
@[simp] theorem resetDecode_outPixels : (resetDecode s).outPixels = [] := rfl
@[simp] theorem resetDecode_outCapacity : (resetDecode s).outCapacity = s.outCapacity := rfl
@[simp] theorem resetDecode_pixelCapacity : (resetDecode s).pixelCapacity = s.pixelCapacity := rfl
@[simp] theorem resetDecode_host : (resetDecode s).host = s.host := rfl
@[simp] theorem resetDecode_freeCount : (resetDecode s).freeCount = s.freeCount := rfl

/-! ### openCommand -/

@[simp] theorem openCommand_config (c : Cmd) : (openCommand c s).config = s.config := rfl
@[simp] theorem openCommand_phase (c : Cmd) : (openCommand c s).phase = .header := rfl
@[simp] theorem openCommand_cmd (c : Cmd) : (openCommand c s).cmd = c := rfl
@[simp] theorem openCommand_hdrWidth (c : Cmd) : (openCommand c s).hdrWidth = s.hdrWidth := rfl
@[simp] theorem openCommand_hdrHeight (c : Cmd) : (openCommand c s).hdrHeight = s.hdrHeight := rfl
@[simp] theorem openCommand_hdrChannels (c : Cmd) : (openCommand c s).hdrChannels = s.hdrChannels := rfl
@[simp] theorem openCommand_hdrColorspace (c : Cmd) : (openCommand c s).hdrColorspace = s.hdrColorspace := rfl
@[simp] theorem openCommand_inLen (c : Cmd) : (openCommand c s).inLen = s.inLen := rfl
@[simp] theorem openCommand_outLen (c : Cmd) : (openCommand c s).outLen = 0 := rfl
@[simp] theorem openCommand_status (c : Cmd) : (openCommand c s).status = s.status := rfl
@[simp] theorem openCommand_prev (c : Cmd) : (openCommand c s).prev = s.prev := rfl
@[simp] theorem openCommand_run (c : Cmd) : (openCommand c s).run = s.run := rfl
@[simp] theorem openCommand_cache (c : Cmd) : (openCommand c s).cache = s.cache := rfl
@[simp] theorem openCommand_k (c : Cmd) : (openCommand c s).k = s.k := rfl
@[simp] theorem openCommand_pos (c : Cmd) : (openCommand c s).pos = s.pos := rfl
@[simp] theorem openCommand_count (c : Cmd) : (openCommand c s).count = s.count := rfl
@[simp] theorem openCommand_n (c : Cmd) : (openCommand c s).n = s.n := rfl
@[simp] theorem openCommand_inPixels (c : Cmd) : (openCommand c s).inPixels = s.inPixels := rfl
@[simp] theorem openCommand_outBytes (c : Cmd) : (openCommand c s).outBytes = s.outBytes := rfl
@[simp] theorem openCommand_inBytes (c : Cmd) : (openCommand c s).inBytes = s.inBytes := rfl
@[simp] theorem openCommand_outPixels (c : Cmd) : (openCommand c s).outPixels = s.outPixels := rfl
@[simp] theorem openCommand_outCapacity (c : Cmd) : (openCommand c s).outCapacity = s.outCapacity := rfl
@[simp] theorem openCommand_pixelCapacity (c : Cmd) : (openCommand c s).pixelCapacity = s.pixelCapacity := rfl
@[simp] theorem openCommand_host (c : Cmd) : (openCommand c s).host = s.host := rfl
@[simp] theorem openCommand_freeCount (c : Cmd) : (openCommand c s).freeCount = s.freeCount := rfl

/-! ### loadCount -/

@[simp] theorem loadCount_config : (loadCount s).config = s.config := rfl
@[simp] theorem loadCount_phase : (loadCount s).phase = s.phase := rfl
@[simp] theorem loadCount_cmd : (loadCount s).cmd = s.cmd := rfl
@[simp] theorem loadCount_hdrWidth : (loadCount s).hdrWidth = s.hdrWidth := rfl
@[simp] theorem loadCount_hdrHeight : (loadCount s).hdrHeight = s.hdrHeight := rfl
@[simp] theorem loadCount_hdrChannels : (loadCount s).hdrChannels = s.hdrChannels := rfl
@[simp] theorem loadCount_hdrColorspace : (loadCount s).hdrColorspace = s.hdrColorspace := rfl
@[simp] theorem loadCount_inLen : (loadCount s).inLen = s.inLen := rfl
@[simp] theorem loadCount_outLen : (loadCount s).outLen = s.outLen := rfl
@[simp] theorem loadCount_status : (loadCount s).status = s.status := rfl
@[simp] theorem loadCount_prev : (loadCount s).prev = s.prev := rfl
@[simp] theorem loadCount_run : (loadCount s).run = s.run := rfl
@[simp] theorem loadCount_cache : (loadCount s).cache = s.cache := rfl
@[simp] theorem loadCount_k : (loadCount s).k = s.k := rfl
@[simp] theorem loadCount_pos : (loadCount s).pos = s.pos := rfl
@[simp] theorem loadCount_count : (loadCount s).count = s.count := rfl
@[simp] theorem loadCount_n : (loadCount s).n = pixelCount s.hdrWidth s.hdrHeight := rfl
@[simp] theorem loadCount_inPixels : (loadCount s).inPixels = s.inPixels := rfl
@[simp] theorem loadCount_outBytes : (loadCount s).outBytes = s.outBytes := rfl
@[simp] theorem loadCount_inBytes : (loadCount s).inBytes = s.inBytes := rfl
@[simp] theorem loadCount_outPixels : (loadCount s).outPixels = s.outPixels := rfl
@[simp] theorem loadCount_outCapacity : (loadCount s).outCapacity = s.outCapacity := rfl
@[simp] theorem loadCount_pixelCapacity : (loadCount s).pixelCapacity = s.pixelCapacity := rfl
@[simp] theorem loadCount_host : (loadCount s).host = s.host := rfl
@[simp] theorem loadCount_freeCount : (loadCount s).freeCount = s.freeCount := rfl

/-! ### loadHeader -/

@[simp] theorem loadHeader_config (h : ImageHeader) : (loadHeader h s).config = s.config := rfl
@[simp] theorem loadHeader_phase (h : ImageHeader) : (loadHeader h s).phase = s.phase := rfl
@[simp] theorem loadHeader_cmd (h : ImageHeader) : (loadHeader h s).cmd = s.cmd := rfl
@[simp] theorem loadHeader_hdrWidth (h : ImageHeader) : (loadHeader h s).hdrWidth = h.width := rfl
@[simp] theorem loadHeader_hdrHeight (h : ImageHeader) : (loadHeader h s).hdrHeight = h.height := rfl
@[simp] theorem loadHeader_hdrChannels (h : ImageHeader) : (loadHeader h s).hdrChannels = h.channels := rfl
@[simp] theorem loadHeader_hdrColorspace (h : ImageHeader) : (loadHeader h s).hdrColorspace = h.colorspace := rfl
@[simp] theorem loadHeader_inLen (h : ImageHeader) : (loadHeader h s).inLen = s.inLen := rfl
@[simp] theorem loadHeader_outLen (h : ImageHeader) : (loadHeader h s).outLen = s.outLen := rfl
@[simp] theorem loadHeader_status (h : ImageHeader) : (loadHeader h s).status = s.status := rfl
@[simp] theorem loadHeader_prev (h : ImageHeader) : (loadHeader h s).prev = s.prev := rfl
@[simp] theorem loadHeader_run (h : ImageHeader) : (loadHeader h s).run = s.run := rfl
@[simp] theorem loadHeader_cache (h : ImageHeader) : (loadHeader h s).cache = s.cache := rfl
@[simp] theorem loadHeader_k (h : ImageHeader) : (loadHeader h s).k = s.k := rfl
@[simp] theorem loadHeader_pos (h : ImageHeader) : (loadHeader h s).pos = s.pos := rfl
@[simp] theorem loadHeader_count (h : ImageHeader) : (loadHeader h s).count = s.count := rfl
@[simp] theorem loadHeader_n (h : ImageHeader) : (loadHeader h s).n = pixelCount h.width h.height := rfl
@[simp] theorem loadHeader_inPixels (h : ImageHeader) : (loadHeader h s).inPixels = s.inPixels := rfl
@[simp] theorem loadHeader_outBytes (h : ImageHeader) : (loadHeader h s).outBytes = s.outBytes := rfl
@[simp] theorem loadHeader_inBytes (h : ImageHeader) : (loadHeader h s).inBytes = s.inBytes := rfl
@[simp] theorem loadHeader_outPixels (h : ImageHeader) : (loadHeader h s).outPixels = s.outPixels := rfl
@[simp] theorem loadHeader_outCapacity (h : ImageHeader) : (loadHeader h s).outCapacity = s.outCapacity := rfl
@[simp] theorem loadHeader_pixelCapacity (h : ImageHeader) : (loadHeader h s).pixelCapacity = s.pixelCapacity := rfl
@[simp] theorem loadHeader_host (h : ImageHeader) : (loadHeader h s).host = s.host := rfl
@[simp] theorem loadHeader_freeCount (h : ImageHeader) : (loadHeader h s).freeCount = s.freeCount := rfl

/-! ### discardHeader: everything but the four header registers, and those after ENCODE -/

@[simp] theorem discardHeader_config : (discardHeader s).config = s.config := by
  unfold discardHeader; split <;> rfl
@[simp] theorem discardHeader_phase : (discardHeader s).phase = s.phase := by
  unfold discardHeader; split <;> rfl
@[simp] theorem discardHeader_cmd : (discardHeader s).cmd = s.cmd := by
  unfold discardHeader; split <;> rfl
@[simp] theorem discardHeader_inLen : (discardHeader s).inLen = s.inLen := by
  unfold discardHeader; split <;> rfl
@[simp] theorem discardHeader_outLen : (discardHeader s).outLen = s.outLen := by
  unfold discardHeader; split <;> rfl
@[simp] theorem discardHeader_status : (discardHeader s).status = s.status := by
  unfold discardHeader; split <;> rfl
@[simp] theorem discardHeader_prev : (discardHeader s).prev = s.prev := by
  unfold discardHeader; split <;> rfl
@[simp] theorem discardHeader_run : (discardHeader s).run = s.run := by
  unfold discardHeader; split <;> rfl
@[simp] theorem discardHeader_cache : (discardHeader s).cache = s.cache := by
  unfold discardHeader; split <;> rfl
@[simp] theorem discardHeader_k : (discardHeader s).k = s.k := by
  unfold discardHeader; split <;> rfl
@[simp] theorem discardHeader_pos : (discardHeader s).pos = s.pos := by
  unfold discardHeader; split <;> rfl
@[simp] theorem discardHeader_count : (discardHeader s).count = s.count := by
  unfold discardHeader; split <;> rfl
@[simp] theorem discardHeader_n : (discardHeader s).n = s.n := by
  unfold discardHeader; split <;> rfl
@[simp] theorem discardHeader_inPixels : (discardHeader s).inPixels = s.inPixels := by
  unfold discardHeader; split <;> rfl
@[simp] theorem discardHeader_outBytes : (discardHeader s).outBytes = s.outBytes := by
  unfold discardHeader; split <;> rfl
@[simp] theorem discardHeader_inBytes : (discardHeader s).inBytes = s.inBytes := by
  unfold discardHeader; split <;> rfl
@[simp] theorem discardHeader_outPixels : (discardHeader s).outPixels = s.outPixels := by
  unfold discardHeader; split <;> rfl
@[simp] theorem discardHeader_outCapacity : (discardHeader s).outCapacity = s.outCapacity := by
  unfold discardHeader; split <;> rfl
@[simp] theorem discardHeader_pixelCapacity : (discardHeader s).pixelCapacity = s.pixelCapacity := by
  unfold discardHeader; split <;> rfl
@[simp] theorem discardHeader_host : (discardHeader s).host = s.host := by
  unfold discardHeader; split <;> rfl
@[simp] theorem discardHeader_freeCount : (discardHeader s).freeCount = s.freeCount := by
  unfold discardHeader; split <;> rfl

theorem discardHeader_of_encode (h : s.cmd = .encode) : discardHeader s = s := by simp [discardHeader, h]

/-! ### returnToIdle -/

@[simp] theorem returnToIdle_config : (returnToIdle s).config = s.config := by simp [returnToIdle]
@[simp] theorem returnToIdle_phase : (returnToIdle s).phase = .idle := by simp [returnToIdle]
@[simp] theorem returnToIdle_cmd : (returnToIdle s).cmd = s.cmd := by simp [returnToIdle]
@[simp] theorem returnToIdle_inLen : (returnToIdle s).inLen = s.inLen := by simp [returnToIdle]
@[simp] theorem returnToIdle_outLen : (returnToIdle s).outLen = s.outLen := by simp [returnToIdle]
@[simp] theorem returnToIdle_status : (returnToIdle s).status = s.status := by simp [returnToIdle]
@[simp] theorem returnToIdle_prev : (returnToIdle s).prev = Config.freePrev s.freeCount := by simp [returnToIdle]
@[simp] theorem returnToIdle_run : (returnToIdle s).run = (Config.freeRun s.freeCount).val := by simp [returnToIdle]
@[simp] theorem returnToIdle_cache : (returnToIdle s).cache = Config.freeCache s.freeCount := by simp [returnToIdle]
@[simp] theorem returnToIdle_k : (returnToIdle s).k = Config.freeInputCursor s.freeCount := by simp [returnToIdle]
@[simp] theorem returnToIdle_pos : (returnToIdle s).pos = Config.freeStreamCursor s.freeCount := by simp [returnToIdle]
@[simp] theorem returnToIdle_count : (returnToIdle s).count = Config.freePixelCount s.freeCount := by simp [returnToIdle]
@[simp] theorem returnToIdle_n : (returnToIdle s).n = Config.freeTarget s.freeCount := by simp [returnToIdle]
@[simp] theorem returnToIdle_inPixels : (returnToIdle s).inPixels = s.inPixels := by simp [returnToIdle]
@[simp] theorem returnToIdle_outBytes : (returnToIdle s).outBytes = Config.freeBytes s.freeCount := by simp [returnToIdle]
@[simp] theorem returnToIdle_inBytes : (returnToIdle s).inBytes = s.inBytes := by simp [returnToIdle]
@[simp] theorem returnToIdle_outPixels : (returnToIdle s).outPixels = Config.freePixels s.freeCount := by simp [returnToIdle]
@[simp] theorem returnToIdle_outCapacity : (returnToIdle s).outCapacity = s.outCapacity := by simp [returnToIdle]
@[simp] theorem returnToIdle_pixelCapacity : (returnToIdle s).pixelCapacity = s.pixelCapacity := by simp [returnToIdle]
@[simp] theorem returnToIdle_host : (returnToIdle s).host = s.host := by simp [returnToIdle]
@[simp] theorem returnToIdle_freeCount : (returnToIdle s).freeCount = s.freeCount + 1 := by simp [returnToIdle]

/-! ### startCommand -/

@[simp] theorem startCommand_config (c : Cmd) : (startCommand c s).config = s.config := by
  cases c <;> rfl
@[simp] theorem startCommand_phase (c : Cmd) : (startCommand c s).phase = .header := by
  cases c <;> rfl
@[simp] theorem startCommand_cmd (c : Cmd) : (startCommand c s).cmd = c := by
  cases c <;> rfl
@[simp] theorem startCommand_hdrWidth (c : Cmd) : (startCommand c s).hdrWidth = s.hdrWidth := by
  cases c <;> rfl
@[simp] theorem startCommand_hdrHeight (c : Cmd) : (startCommand c s).hdrHeight = s.hdrHeight := by
  cases c <;> rfl
@[simp] theorem startCommand_hdrChannels (c : Cmd) : (startCommand c s).hdrChannels = s.hdrChannels := by
  cases c <;> rfl
@[simp] theorem startCommand_hdrColorspace (c : Cmd) : (startCommand c s).hdrColorspace = s.hdrColorspace := by
  cases c <;> rfl
@[simp] theorem startCommand_inLen (c : Cmd) : (startCommand c s).inLen = s.inLen := by
  cases c <;> rfl
@[simp] theorem startCommand_outLen (c : Cmd) : (startCommand c s).outLen = 0 := by
  cases c <;> rfl
@[simp] theorem startCommand_status (c : Cmd) : (startCommand c s).status = s.status := by
  cases c <;> rfl
@[simp] theorem startCommand_prev (c : Cmd) : (startCommand c s).prev = Pixel.zero := by
  cases c <;> rfl
@[simp] theorem startCommand_run (c : Cmd) : (startCommand c s).run = 0 := by
  cases c <;> rfl
@[simp] theorem startCommand_cache (c : Cmd) : (startCommand c s).cache = Cache.zero := by
  cases c <;> rfl
@[simp] theorem startCommand_k (c : Cmd) : (startCommand c s).k = 0 := by
  cases c <;> rfl
@[simp] theorem startCommand_pos (c : Cmd) : (startCommand c s).pos = 0 := by
  cases c <;> rfl
@[simp] theorem startCommand_count (c : Cmd) : (startCommand c s).count = 0 := by
  cases c <;> rfl
@[simp] theorem startCommand_inPixels (c : Cmd) : (startCommand c s).inPixels = s.inPixels := by
  cases c <;> rfl
@[simp] theorem startCommand_outBytes (c : Cmd) : (startCommand c s).outBytes = [] := by
  cases c <;> rfl
@[simp] theorem startCommand_inBytes (c : Cmd) : (startCommand c s).inBytes = s.inBytes := by
  cases c <;> rfl
@[simp] theorem startCommand_outPixels (c : Cmd) : (startCommand c s).outPixels = [] := by
  cases c <;> rfl
@[simp] theorem startCommand_outCapacity (c : Cmd) : (startCommand c s).outCapacity = s.outCapacity := by
  cases c <;> rfl
@[simp] theorem startCommand_pixelCapacity (c : Cmd) : (startCommand c s).pixelCapacity = s.pixelCapacity := by
  cases c <;> rfl
@[simp] theorem startCommand_host (c : Cmd) : (startCommand c s).host = s.host := by
  cases c <;> rfl
@[simp] theorem startCommand_freeCount (c : Cmd) : (startCommand c s).freeCount = s.freeCount := by
  cases c <;> rfl
@[simp] theorem startCommand_n_encode : (startCommand .encode s).n = pixelCount s.hdrWidth s.hdrHeight := rfl
@[simp] theorem startCommand_n_decode : (startCommand .decode s).n = s.n := rfl

end Sys2Proof.Machine
end

