-- ==== Sys2Proof/Laws/Cache.lean ====
section
/-! SUPPORT. The cache: what a lookup reads after a store, and at the start of a command. -/

namespace Sys2Proof.Machine

@[simp] theorem cacheAt_zero (i : BitVec 6) : cacheAt Cache.zero i = Pixel.zero := by
  simp [cacheAt, Cache.zero]

theorem cacheAt_cacheSet (c : Cache) (i j : BitVec 6) (p : Pixel) :
    cacheAt (cacheSet c i p) j = if j = i then p else cacheAt c j := by
  simp only [cacheAt, cacheSet, Vector.getElem_set]
  by_cases h : j = i
  · simp [h]
  · have : ¬ i.toNat = j.toNat := fun e => h (BitVec.eq_of_toNat_eq e.symm)
    simp [h, this]

@[simp] theorem cacheAt_cacheSet_self (c : Cache) (i : BitVec 6) (p : Pixel) : cacheAt (cacheSet c i p) i = p := by
  simp [cacheAt_cacheSet]

theorem lookup_store (i j : BitVec 6) (p : Pixel) (s : State) :
    lookup j (store i p s) = if j = i then p else lookup j s := cacheAt_cacheSet _ _ _ _

/-- A lookup sees the cache alone. -/
theorem lookup_congr {s t : State} (h : t.cache = s.cache) (i : BitVec 6) : lookup i t = lookup i s := by
  simp [lookup, h]

theorem lookup_of_zero {s : State} (h : s.cache = Cache.zero) (i : BitVec 6) : lookup i s = Pixel.zero := by
  simp [lookup, h]

/-- Two caches that read alike are one cache. -/
theorem cache_ext {c d : Cache} (h : ∀ i, cacheAt c i = cacheAt d i) : c = d := by
  apply Vector.ext
  intro i hi
  have := h (BitVec.ofNat 6 i)
  have e : i % 64 = i := Nat.mod_eq_of_lt hi
  simpa [cacheAt, e] using this

/-- The store of R104 writes the slot of the pixel and no other. -/
theorem storedOnly_of_cache {px : Pixel} {s t : State} (h : t.cache = cacheSet s.cache (hash px) px) :
    StoredOnly px s t := by
  intro i
  simp only [lookup, h, cacheAt_cacheSet, hash_eq_iff]

theorem cacheKept_of_cache {s t : State} (h : t.cache = s.cache) : CacheKept s t := lookup_congr h

/-- Storing a pixel at its own slot keeps every slot owned (R103). -/
theorem cacheOwned_of_store {px : Pixel} {s t : State} (h : t.cache = cacheSet s.cache (hash px) px)
    (hs : CacheOwned s) : CacheOwned t := by
  intro i
  simp only [lookup, h, cacheAt_cacheSet]
  split
  · next e => exact .inr (e ▸ (hash_toNat px).symm)
  · exact hs i

theorem cacheOwned_of_zero {s : State} (h : s.cache = Cache.zero) : CacheOwned s :=
  fun i => .inl (lookup_of_zero h i)

theorem cacheOwned_congr {s t : State} (h : t.cache = s.cache) (hs : CacheOwned s) : CacheOwned t := by
  intro i
  rw [lookup_congr h]
  exact hs i

end Sys2Proof.Machine
end

