-- ==== Sys2Proof/Laws/Decode.lean ====
section
/-! SUPPORT. The decoder and the encoder: what a decoded chunk took from the bytes, and fields put in and taken out. -/

namespace Sys2Proof

/-- A biased field gives its value back (R81), for every value in its range. -/
theorem unbias_bias {w : Nat} {x b : Int} (h0 : 0 ≤ x + b) (h1 : x + b < 2 ^ w) : unbias (bias w x b) b = x := by
  have e : ((bias w x b).toNat : Int) = (x + b) % 2 ^ w := by
    simp only [bias, BitVec.toNat_ofInt]
    have : (0 : Int) < 2 ^ w := by positivity
    rw [Int.toNat_of_nonneg (Int.emod_nonneg _ (by exact_mod_cast this.ne'))]
    push_cast
    rfl
  rw [unbias, e, Int.emod_eq_of_lt h0 h1]
  omega

/-- A field gives back its bits after its bias has been taken off and put on. -/
theorem bias_unbias {w : Nat} (v : BitVec w) (b : Int) : bias w (unbias v b) b = v := by
  simp [bias, unbias]

/-- The bytes a decoded chunk took are as many as its kind says, and its leading byte says its kind (R80). -/
theorem decode_ok {bytes rest : List Byte} {i : Instr} (h : decode bytes = .ok (i, rest)) :
    ∃ b front, bytes = b :: front ++ rest ∧ i.kind = kind b ∧ front.length + 1 = chunkLength (kind b) := by
  unfold decode at h
  split at h
  · cases h
  next b tail =>
    refine ⟨b, ?_⟩
    split at h
    · next hk =>
      split at h
      · next r g bl t => cases h; exact ⟨[r, g, bl], rfl, hk.symm, by rw [hk]; rfl⟩
      · cases h
    · next hk =>
      split at h
      · next r g bl a t => cases h; exact ⟨[r, g, bl, a], rfl, hk.symm, by rw [hk]; rfl⟩
      · cases h
    · next hk => cases h; exact ⟨[], rfl, hk.symm, by rw [hk]; rfl⟩
    · next hk => cases h; exact ⟨[], rfl, hk.symm, by rw [hk]; rfl⟩
    · next hk =>
      split at h
      · next b1 t => cases h; exact ⟨[b1], rfl, hk.symm, by rw [hk]; rfl⟩
      · cases h
    · next hk => cases h; exact ⟨[], rfl, hk.symm, by rw [hk]; rfl⟩

/-- A chunk takes at least one byte. -/
theorem decode_shorter {bytes rest : List Byte} {i : Instr} (h : decode bytes = .ok (i, rest)) :
    rest.length < bytes.length := by
  obtain ⟨b, front, rfl, -, -⟩ := decode_ok h
  simp

/-- A header parses exactly where there are 14 bytes (R58, R71). -/
theorem parseHeader_isSome_iff (bytes : List Byte) : (parseHeader bytes).isSome = true ↔ 14 ≤ bytes.length := by
  unfold parseHeader
  split
  · simp
  · next h =>
    simp only [Option.isSome_none, Bool.false_eq_true, false_iff, Nat.not_le]
    by_contra hl
    match bytes, h, hl with
    | m0 :: m1 :: m2 :: m3 :: w0 :: w1 :: w2 :: w3 :: h0 :: h1 :: h2 :: h3 :: ch :: cs :: rest, h, _ =>
      exact h _ _ _ _ _ _ _ _ _ _ _ _ _ _ _ rfl
    | [], _, hl | [_], _, hl | [_, _], _, hl | [_, _, _], _, hl | [_, _, _, _], _, hl | [_, _, _, _, _], _, hl
    | [_, _, _, _, _, _], _, hl | [_, _, _, _, _, _, _], _, hl | [_, _, _, _, _, _, _, _], _, hl
    | [_, _, _, _, _, _, _, _, _], _, hl | [_, _, _, _, _, _, _, _, _, _], _, hl
    | [_, _, _, _, _, _, _, _, _, _, _], _, hl | [_, _, _, _, _, _, _, _, _, _, _, _], _, hl
    | [_, _, _, _, _, _, _, _, _, _, _, _, _], _, hl => simp at hl

theorem parseHeader_of_length {bytes : List Byte} (h : 14 ≤ bytes.length) : ∃ m hd, parseHeader bytes = some (m, hd) := by
  obtain ⟨⟨m, hd⟩, e⟩ := Option.isSome_iff_exists.mp ((parseHeader_isSome_iff bytes).mpr h)
  exact ⟨m, hd, e⟩

theorem parseHeader_length {bytes : List Byte} {m : Magic} {hd : ImageHeader} (h : parseHeader bytes = some (m, hd)) :
    14 ≤ bytes.length := (parseHeader_isSome_iff bytes).mp (by rw [h]; rfl)

/-- The header reads the first 14 bytes and no more. -/
theorem parseHeader_append {front : List Byte} (rest : List Byte) (h : front.length = 14) :
    parseHeader (front ++ rest) = parseHeader front := by
  match front, h with
  | [_, _, _, _, _, _, _, _, _, _, _, _, _, _], _ => rfl

end Sys2Proof
end

