-- ==== Sys2Proof/Laws/Streams.lean ====
section
/-! SUPPORT. The streams and the checks around them: one lemma each that says all a shared operation can answer. -/

namespace Sys2Proof.Machine

/-- The two answers of the operand check (R184). -/
theorem withOperands_cases (len : Nat) (s go : State) :
    (s.pos + len ≤ s.inLen ∧ withOperands len s go = .next go) ∨
    (s.inLen < s.pos + len ∧ withOperands len s go = .next (raise .truncatedStream s)) := by
  unfold withOperands
  split
  · next h => exact .inr ⟨h, rfl⟩
  · next h => exact .inl ⟨Nat.le_of_not_lt h, rfl⟩

theorem withOperands_next {len : Nat} {s go t : State} (h : withOperands len s go = .next t) :
    (s.pos + len ≤ s.inLen ∧ t = go) ∨ (s.inLen < s.pos + len ∧ t = raise .truncatedStream s) := by
  obtain ⟨hl, he⟩ | ⟨hl, he⟩ := withOperands_cases len s go <;> rw [he] at h <;> cases h
  · exact .inl ⟨hl, rfl⟩
  · exact .inr ⟨hl, rfl⟩

/-- The sink check answers the state it was given, or the refusal of R65. -/
theorem withinSink_cases (s : State) :
    (s.outBytes.length ≤ s.outCapacity ∧ withinSink s = .next s) ∨
    (s.outCapacity < s.outBytes.length ∧ withinSink s = .refused .outputOverCapacity) := by
  unfold withinSink
  split
  · next h => exact .inl ⟨h, rfl⟩
  · next h => exact .inr ⟨Nat.lt_of_not_le h, rfl⟩

theorem withinSink_next {s t : State} (h : withinSink s = .next t) : t = s ∧ s.outBytes.length ≤ s.outCapacity := by
  obtain ⟨hl, he⟩ | ⟨_, he⟩ := withinSink_cases s <;> rw [he] at h <;> cases h
  exact ⟨rfl, hl⟩

theorem withinSink_of_fits {s : State} (h : s.outBytes.length ≤ s.outCapacity) : withinSink s = .next s := if_pos h

/-- `MemRead` answers the bytes where the buffer reaches that far, and nothing elsewhere. -/
theorem memRead_of_le {addr n : Nat} {s : State} (h : addr + n ≤ s.inBytes.length) :
    memRead addr n s = some ((s.inBytes.drop addr).take n) := by
  have : ((s.inBytes.drop addr).take n).length = n := by simp; omega
  simp only [memRead, this, if_true]

theorem memRead_some {addr n : Nat} {s : State} {bytes : List Byte} (h : memRead addr n s = some bytes) :
    bytes = (s.inBytes.drop addr).take n ∧ bytes.length = n := by
  simp only [memRead] at h
  split at h
  · next e => cases h; exact ⟨rfl, e⟩
  · cases h

/-- With the promised buffer, the unread bytes are all from `pos` on. -/
theorem unread_eq {s : State} (h : s.inBytes.length = s.inLen) : unread s = s.inBytes.drop s.pos := by
  simp [unread, ← h]

theorem unread_length (s : State) : (unread s).length = min s.inLen s.inBytes.length - s.pos := by simp [unread]

/-- Emitted bytes follow the bytes already there, which read as before. -/
theorem emit_getElem_old (bytes : List Byte) (s : State) {j : Nat} (h : j < s.outBytes.length) :
    (emit bytes s).outBytes[j]? = s.outBytes[j]? := by
  simp [List.getElem?_append_left h]

/-- What the host's taking of a result can answer. -/
theorem takeResult_next {s t : State} (h : takeResult s = .next t) :
    (s.phase = .done ∧ t = returnToIdle s) ∨ (s.phase = .failed ∧ t = returnToIdle (discardLength s)) := by
  unfold takeResult at h
  split at h <;> cases h
  · next e => exact .inl ⟨e, rfl⟩
  · next e => exact .inr ⟨e, rfl⟩

end Sys2Proof.Machine
end

