-- ==== Sys2Proof/Laws/Encoder.lean ====
section
/-! SUPPORT. ENCODE's pixel step: what the flush, the emission of a chunk and the two cases of a step leave behind. -/

namespace Sys2Proof.Machine

/-- The bytes a flush emits: none, or the one byte of the pending run (R134, R163). -/
theorem flushPending_eq (s : State) : flushPending s = setRun 0 (emit (pendingBytes s.run) s) := by
  unfold flushPending pendingBytes
  split
  · rfl
  · next h =>
    have : s.run = 0 := by omega
    cases s
    simp_all [emit, setRun]

/-- The encode rules of R124 to R132, as one: the chunk's bytes are emitted and the cache is written unless it is INDEX. -/
theorem emitChunk_eq (c : Instr) (cur : Pixel) (s : State) (h : c.kind ≠ .run) :
    emitChunk c cur s = { emit (encode c) s with cache := cacheAfter c cur s.cache } := by
  cases c <;> first | rfl | exact absurd rfl h

/-- The classifier never answers a run (R122). -/
theorem classify_not_run (cur prev : Pixel) (cache : Cache) : (classify cur prev cache).kind ≠ .run := by
  unfold classify
  dsimp only
  split
  · simp [Instr.kind]
  · split
    · split
      · simp [Instr.kind]
      · split <;> simp [Instr.kind]
    · simp [Instr.kind]

/-- A pixel step, the run case (R162, R164): one RUN byte at 62 or at the last pixel, nothing otherwise. -/
theorem encodePixel_run {cur : Pixel} {s : State} (h : cur = s.prev) :
    encodePixel cur s =
      if s.run + 1 = maxRun ∨ s.k + 1 = s.n then
        endPixel cur (setRun 0 (emit (encode (.run (s.run + 1))) (setRun (s.run + 1) s)))
      else endPixel cur (setRun (s.run + 1) s) := by
  rw [encodePixel, if_pos h, encodeRunPixel]
  split <;> rfl

/-- A pixel step, the other case (R163, R164). -/
theorem encodePixel_new {cur : Pixel} {s : State} (h : cur ≠ s.prev) :
    encodePixel cur s =
      endPixel cur { emit (encode (classify cur s.prev s.cache)) (setRun 0 (emit (pendingBytes s.run) s)) with
        cache := cacheAfter (classify cur s.prev s.cache) cur s.cache } := by
  simp only [encodePixel, if_neg h, encodeNewPixel, flushPending_eq]
  rw [emitChunk_eq _ _ _ (classify_not_run _ _ _)]
  rfl

/-- What a pixel step writes: the output, `run`, the cache, `prev` and `k`, and nothing else (R162 to R164). -/
theorem encodePixel_frame (cur : Pixel) (s : State) :
    encodePixel cur s =
      { s with
        outBytes := (encodePixel cur s).outBytes
        run := (encodePixel cur s).run
        cache := (encodePixel cur s).cache
        prev := cur
        k := s.k + 1 } := by
  by_cases h : cur = s.prev
  · rw [encodePixel_run h]
    split <;> rfl
  · rw [encodePixel_new h]
    rfl

/-! ### The bytes and the cache of a chunk -/

theorem encode_length_bounds (c : Instr) : 1 ≤ (encode c).length ∧ (encode c).length ≤ 5 := by
  cases c <;> simp [encode]

theorem pendingBytes_length (run : Nat) : (pendingBytes run).length = if run = 0 then 0 else 1 := by
  unfold pendingBytes
  split
  · next h =>
    rw [if_neg (by omega)]
    rfl
  · next h =>
    rw [if_pos (by omega)]
    rfl

/-- The RUN byte of R78 as a number. -/
theorem encode_run {n : Nat} (h1 : 1 ≤ n) (h2 : n ≤ 62) : encode (.run n) = [BitVec.ofNat 8 (0xC0 + (n - 1))] := by
  interval_cases n <;> rfl

theorem cacheAfter_of_index {c : Instr} {cur : Pixel} {cache : Cache} (h : c.kind = .index) :
    cacheAfter c cur cache = cache := by
  cases c <;> first | rfl | cases h

theorem cacheAfter_of_stored {c : Instr} {cur : Pixel} {cache : Cache} (h : c.kind ≠ .index) (h' : c.kind ≠ .run) :
    cacheAfter c cur cache = cacheSet cache (hash cur) cur := by
  cases c <;> first | rfl | exact absurd rfl h | exact absurd rfl h'

/-- An INDEX outcome means the slot holds the pixel (R124). -/
theorem classify_index {cur prev : Pixel} {cache : Cache} (h : (classify cur prev cache).kind = .index) :
    cacheAt cache (hash cur) = cur := by
  unfold classify at h
  dsimp only at h
  split at h
  · assumption
  · split at h
    · split at h
      · cases h
      · split at h <;> cases h
    · cases h

end Sys2Proof.Machine
end

