-- ==== Sys2Proof/Laws/Meanings.lean ====
section
/-! SUPPORT. What a chunk's meaning can do, said once: every meaning answers a next state, which is one of three. -/

namespace Sys2Proof.Machine

/-- Frames from the plain fields: streams that are the same lists read the same. -/
theorem streamsKept_of_eq {s t : State} (h1 : t.inBytes = s.inBytes) (h2 : t.inPixels = s.inPixels)
    (h3 : t.outBytes = s.outBytes) : StreamsKept s t := by
  simp [StreamsKept, inByte, inPixel, h1, h2, h3]

/-- A chunk that gives one pixel, with the cache store of R104. -/
theorem outputsPixel_stored (px : Pixel) (len : Nat) (s : State) :
    OutputsPixel px len s (outPixel px (advance len (storePixel px s))) where
  outPixels := rfl
  count := rfl
  prev := rfl
  pos := rfl
  frame := by constructor <;> first | rfl | exact streamsKept_of_eq rfl rfl rfl

/-- A chunk that gives one pixel, without a cache store. -/
theorem outputsPixel_plain (px : Pixel) (len : Nat) (s : State) : OutputsPixel px len s (outPixel px (advance len s)) where
  outPixels := rfl
  count := rfl
  prev := rfl
  pos := rfl
  frame := by constructor <;> first | rfl | exact streamsKept_of_eq rfl rfl rfl

theorem chunkFrame_run (m len : Nat) (s : State) : ChunkFrame s (outRun m (advance len s)) := by
  constructor <;> first | rfl | exact streamsKept_of_eq rfl rfl rfl

/-- All that `exec` can do: raise TruncatedStream, output one pixel with or without its cache store, or replay `prev`. -/
theorem exec_cases {i : Instr} {s t : State} (h : exec i s = .next t) :
    (s.inLen < s.pos + chunkLength i.kind ∧ t = raise .truncatedStream s) ∨
    (∃ px, t = outPixel px (advance (chunkLength i.kind) (storePixel px s))) ∨
    (∃ px, t = outPixel px (advance 1 s)) ∨
    (∃ n, i = .run n ∧ t = outRun (runLength n (s.n - s.count)) (advance 1 s)) := by
  cases i with
  | rgb r g b =>
    obtain ⟨-, rfl⟩ | ⟨hl, rfl⟩ := withOperands_next h
    · exact .inr (.inl ⟨_, rfl⟩)
    · exact .inl ⟨hl, rfl⟩
  | rgba r g b a =>
    obtain ⟨-, rfl⟩ | ⟨hl, rfl⟩ := withOperands_next h
    · exact .inr (.inl ⟨_, rfl⟩)
    · exact .inl ⟨hl, rfl⟩
  | index idx => cases h; exact .inr (.inr (.inl ⟨_, rfl⟩))
  | diff dr dg db => cases h; exact .inr (.inl ⟨_, rfl⟩)
  | luma dg drDg dbDg =>
    obtain ⟨-, rfl⟩ | ⟨hl, rfl⟩ := withOperands_next h
    · exact .inr (.inl ⟨_, rfl⟩)
    · exact .inl ⟨hl, rfl⟩
  | run n => cases h; exact .inr (.inr (.inr ⟨n, rfl, rfl⟩))

end Sys2Proof.Machine
end

