-- ==== Sys2Proof/Laws/PerInstr.lean ====
section
/-! SUPPORT. Facts about every chunk as syntax, one lemma per constructor. -/

namespace Sys2Proof.Laws.EncodeLength

/-- The encoder gives a chunk the length R80 gives its kind. -/
def Statement (i : Instr) : Prop := (encode i).length = chunkLength i.kind

theorem rgb (r g b : Byte) : Statement (.rgb r g b) := rfl

theorem rgba (r g b a : Byte) : Statement (.rgba r g b a) := rfl

theorem index (idx : BitVec 6) : Statement (.index idx) := rfl

theorem diff (dr dg db : Int) : Statement (.diff dr dg db) := rfl

theorem luma (dg drDg dbDg : Int) : Statement (.luma dg drDg dbDg) := rfl

theorem run (n : Nat) : Statement (.run n) := rfl

end Sys2Proof.Laws.EncodeLength
end

