-- ==== Sys2Proof/Laws/Step.lean ====
section
/-! SUPPORT. One step of the machine, said once: which function each phase runs, and all a next state can be. -/

namespace Sys2Proof.Machine

theorem step_between {s : State} (h : ¬ Running s) : step s = hostStep s := by
  unfold step
  split <;> simp_all [Running]

theorem step_encodeHeader {s : State} (hp : s.phase = .header) (hc : s.cmd = .encode) : step s = encodeHeader s := by
  simp [step, hp, hc]

theorem step_encodeBody {s : State} (hp : s.phase = .body) (hc : s.cmd = .encode) : step s = encodeBody s := by
  simp [step, hp, hc]

theorem step_encodeTrailer {s : State} (hp : s.phase = .trailer) (hc : s.cmd = .encode) : step s = encodeTrailer s := by
  simp [step, hp, hc]

theorem step_decodeHeader {s : State} (hp : s.phase = .header) (hc : s.cmd = .decode) : step s = decodeHeader s := by
  simp [step, hp, hc]

theorem step_decodeBody {s : State} (hp : s.phase = .body) (hc : s.cmd = .decode) : step s = decodeBody exec s := by
  simp [step, hp, hc]

theorem step_decodeTrailer {s : State} (hp : s.phase = .trailer) (hc : s.cmd = .decode) : step s = decodeTrailer s := by
  simp [step, hp, hc]

/-- The phases of a step, each with the function it runs. -/
theorem step_phases (s : State) :
    (¬ Running s ∧ step s = hostStep s) ∨
    (s.cmd = .encode ∧ s.phase = .header ∧ step s = encodeHeader s) ∨
    (s.cmd = .encode ∧ s.phase = .body ∧ step s = encodeBody s) ∨
    (s.cmd = .encode ∧ s.phase = .trailer ∧ step s = encodeTrailer s) ∨
    (s.cmd = .decode ∧ s.phase = .header ∧ step s = decodeHeader s) ∨
    (s.cmd = .decode ∧ s.phase = .body ∧ step s = decodeBody exec s) ∨
    (s.cmd = .decode ∧ s.phase = .trailer ∧ step s = decodeTrailer s) := by
  cases hp : s.phase <;> cases hc : s.cmd <;> simp [Running, hp, hc, step]

/-- What no meaning writes: the parameters, the host's side, ENCODE's registers and output, the inputs and the sinks; and
`N` and the `HDR_*` registers, which only a header writes. -/
theorem exec_kept {i : Instr} {s t : State} (h : exec i s = .next t) :
    t.config = s.config ∧ t.cmd = s.cmd ∧ t.host = s.host ∧ t.inBytes = s.inBytes ∧ t.inPixels = s.inPixels ∧
    t.inLen = s.inLen ∧ t.outCapacity = s.outCapacity ∧ t.pixelCapacity = s.pixelCapacity ∧
    t.freeCount = s.freeCount ∧ t.run = s.run ∧ t.k = s.k ∧ t.outBytes = s.outBytes ∧ t.n = s.n ∧
    t.outLen = s.outLen ∧ imageHeader t = imageHeader s := by
  obtain ⟨-, rfl⟩ | ⟨px, rfl⟩ | ⟨px, rfl⟩ | ⟨n, -, rfl⟩ := exec_cases h <;>
    exact ⟨rfl, rfl, rfl, rfl, rfl, rfl, rfl, rfl, rfl, rfl, rfl, rfl, rfl, rfl, rfl⟩

/-- A meaning either raises TruncatedStream or leaves `phase` and `STATUS` alone. -/
theorem exec_ends {i : Instr} {s t : State} (h : exec i s = .next t) :
    t = raise .truncatedStream s ∨ (t.phase = s.phase ∧ t.status = s.status) := by
  obtain ⟨-, rfl⟩ | ⟨px, rfl⟩ | ⟨px, rfl⟩ | ⟨n, -, rfl⟩ := exec_cases h
  · exact .inl rfl
  · exact .inr ⟨rfl, rfl⟩
  · exact .inr ⟨rfl, rfl⟩
  · exact .inr ⟨rfl, rfl⟩

/-! ### What each phase answers, under the conditions the rules name -/

theorem encodeHeader_of_size {s : State}
    (h : pixelCount s.hdrWidth s.hdrHeight = 0 ∨ pixelCount s.hdrWidth s.hdrHeight ≠ s.inLen) :
    encodeHeader s = .next (raise .invalidDimensions (loadCount s)) := if_pos h

theorem encodeHeader_of_channels {s : State} (h0 : pixelCount s.hdrWidth s.hdrHeight ≠ 0)
    (h1 : pixelCount s.hdrWidth s.hdrHeight = s.inLen) (h : ¬ channelsOk s.hdrChannels) :
    encodeHeader s = .next (raise .invalidChannelCount (loadCount s)) :=
  (if_neg (not_or.mpr ⟨h0, not_not.mpr h1⟩)).trans (if_pos h)

theorem encodeHeader_of_valid {s : State} (h0 : pixelCount s.hdrWidth s.hdrHeight ≠ 0)
    (h1 : pixelCount s.hdrWidth s.hdrHeight = s.inLen) (h : channelsOk s.hdrChannels) :
    encodeHeader s =
      withinSink (setPhase .body (emit (headerBytes s.config.magic (imageHeader s)) (resetEncode (loadCount s)))) :=
  (if_neg (not_or.mpr ⟨h0, not_not.mpr h1⟩)).trans (if_neg (not_not.mpr h))

theorem encodeBody_of_pixel {s : State} {p : Pixel} (hk : s.k < s.n) (hp : inPixel s.k s = some p) :
    encodeBody s = withinSink (encodePixel (inputPixel s.hdrChannels p) s) := by
  rw [encodeBody, if_pos hk, hp]

theorem encodeBody_of_end {s : State} (hk : s.n ≤ s.k) : encodeBody s = .next (setPhase .trailer s) :=
  if_neg (Nat.not_lt.mpr hk)

theorem decodeHeader_of_short {s : State} (h : s.inLen < headerLength) :
    decodeHeader s = .next (raise .badHeader (resetDecode s)) := if_pos h

theorem decodeHeader_of_parse {s : State} {m : Magic} {h : ImageHeader} (hl : headerLength ≤ s.inLen)
    (hp : parseHeader (s.inBytes.take s.inLen) = some (m, h)) :
    decodeHeader s =
      if ¬ headerOk s.config.magic m h then .next (raise .badHeader (setPos headerLength (resetDecode s)))
      else if s.pixelCapacity < pixelCount h.width h.height then .refused .pixelsOverCapacity
      else .next (setPhase .body (loadHeader h (setPos headerLength (resetDecode s)))) := by
  rw [decodeHeader, if_neg (Nat.not_lt.mpr hl), hp]

theorem decodeBody_of_chunk {run : Instr → State → Outcome} {s : State} {i : Instr} {rest : List Byte}
    (hk : s.count < s.n) (hd : decode (unread s) = .ok (i, rest)) : decodeBody run s = run i s := by
  rw [decodeBody, if_pos hk, hd]

theorem decodeBody_of_cut {run : Instr → State → Outcome} {s : State} {e : DecodeError}
    (hk : s.count < s.n) (hl : s.inLen ≤ s.inBytes.length) (hd : decode (unread s) = .error e) :
    decodeBody run s = .next (raise .truncatedStream s) := by
  rw [decodeBody, if_pos hk, hd]
  exact if_neg (Nat.not_lt.mpr hl)

theorem decodeBody_of_end {run : Instr → State → Outcome} {s : State} (hk : s.n ≤ s.count) :
    decodeBody run s = .next (setPhase .trailer s) := if_neg (Nat.not_lt.mpr hk)

theorem decodeTrailer_of_short {s : State} (h : s.inLen < s.pos + trailerLength) :
    decodeTrailer s = .next (raise .badTrailer s) := if_pos h

theorem decodeTrailer_of_bytes {s : State} {bytes : List Byte} (h : s.pos + trailerLength ≤ s.inLen)
    (hb : memRead s.pos trailerLength s = some bytes) :
    decodeTrailer s = if bytes = endMarker then .next (succeed s.n s) else .next (raise .badTrailer s) := by
  rw [decodeTrailer, if_neg (Nat.not_lt.mpr h), hb]

/-! ### All a phase can answer -/

/-- All a next state of ENCODE's header can be (R160, R161). -/
theorem encodeHeader_next {s t : State} (h : encodeHeader s = .next t) :
    ((pixelCount s.hdrWidth s.hdrHeight = 0 ∨ pixelCount s.hdrWidth s.hdrHeight ≠ s.inLen) ∧
      t = raise .invalidDimensions (loadCount s)) ∨
    (¬ channelsOk s.hdrChannels ∧ t = raise .invalidChannelCount (loadCount s)) ∨
    (pixelCount s.hdrWidth s.hdrHeight ≠ 0 ∧ pixelCount s.hdrWidth s.hdrHeight = s.inLen ∧ channelsOk s.hdrChannels ∧
      (headerBytes s.config.magic (imageHeader s)).length ≤ s.outCapacity ∧
      t = setPhase .body (emit (headerBytes s.config.magic (imageHeader s)) (resetEncode (loadCount s)))) := by
  unfold encodeHeader at h
  dsimp only at h
  split at h
  · next hd => cases h; exact .inl ⟨hd, rfl⟩
  · next hd =>
    split at h
    · next hc => cases h; exact .inr (.inl ⟨hc, rfl⟩)
    · next hc =>
      obtain ⟨rfl, hl⟩ := withinSink_next h
      simp only [not_or, not_not] at hd
      rw [not_not] at hc
      exact .inr (.inr ⟨hd.1, hd.2, hc, by simpa [imageHeader] using hl, rfl⟩)

/-- All a next state of ENCODE's body can be (R162 to R164). -/
theorem encodeBody_next {s t : State} (h : encodeBody s = .next t) :
    (s.k < s.n ∧ ∃ p, inPixel s.k s = some p ∧ t = encodePixel (inputPixel s.hdrChannels p) s ∧
      t.outBytes.length ≤ t.outCapacity) ∨
    (s.n ≤ s.k ∧ t = setPhase .trailer s) := by
  unfold encodeBody at h
  split at h
  · next hk =>
    split at h
    · next p hp =>
      obtain ⟨rfl, hl⟩ := withinSink_next h
      exact .inl ⟨hk, p, hp, rfl, hl⟩
    · cases h
  · next hk => cases h; exact .inr ⟨Nat.le_of_not_lt hk, rfl⟩

/-- The one next state of ENCODE's trailer (R165). -/
theorem encodeTrailer_next {s t : State} (h : encodeTrailer s = .next t) :
    t = succeed (emit endMarker (flushPending s)).outBytes.length (emit endMarker (flushPending s)) ∧
      t.outBytes.length ≤ t.outCapacity := by
  unfold encodeTrailer at h
  obtain ⟨rfl, hl⟩ := withinSink_next h
  exact ⟨rfl, hl⟩

/-- All a next state of DECODE's header can be (R180, R181). -/
theorem decodeHeader_next {s t : State} (h : decodeHeader s = .next t) :
    (s.inLen < headerLength ∧ t = raise .badHeader (resetDecode s)) ∨
    (∃ m hd, parseHeader (s.inBytes.take s.inLen) = some (m, hd) ∧ headerLength ≤ s.inLen ∧
      ((¬ headerOk s.config.magic m hd ∧ t = raise .badHeader (setPos headerLength (resetDecode s))) ∨
       (headerOk s.config.magic m hd ∧ pixelCount hd.width hd.height ≤ s.pixelCapacity ∧
         t = setPhase .body (loadHeader hd (setPos headerLength (resetDecode s)))))) := by
  unfold decodeHeader at h
  split at h
  · next hl => cases h; exact .inl ⟨hl, rfl⟩
  · next hl =>
    split at h
    · cases h
    · next m hd hp =>
      refine .inr ⟨m, hd, hp, Nat.le_of_not_lt hl, ?_⟩
      split at h
      · next ho => cases h; exact .inl ⟨ho, rfl⟩
      · next ho =>
        split at h
        · cases h
        · next hc => cases h; exact .inr ⟨not_not.mp ho, Nat.le_of_not_lt hc, rfl⟩

/-- All a next state of DECODE's body can be (R182, R184). -/
theorem decodeBody_next {run : Instr → State → Outcome} {s t : State} (h : decodeBody run s = .next t) :
    (s.count < s.n ∧ ∃ i rest, decode (unread s) = .ok (i, rest) ∧ run i s = .next t) ∨
    (s.count < s.n ∧ (∃ e, decode (unread s) = .error e) ∧ t = raise .truncatedStream s) ∨
    (s.n ≤ s.count ∧ t = setPhase .trailer s) := by
  unfold decodeBody at h
  split at h
  · next hk =>
    split at h
    · next i rest hd => exact .inl ⟨hk, i, rest, hd, h⟩
    · next e hd =>
      split at h <;> cases h
      exact .inr (.inl ⟨hk, ⟨e, hd⟩, rfl⟩)
  · next hk => cases h; exact .inr (.inr ⟨Nat.le_of_not_lt hk, rfl⟩)

/-- All a next state of DECODE's trailer can be (R187). -/
theorem decodeTrailer_next {s t : State} (h : decodeTrailer s = .next t) :
    t = raise .badTrailer s ∨
    (s.pos + trailerLength ≤ s.inLen ∧ memRead s.pos trailerLength s = some endMarker ∧ t = succeed s.n s) := by
  unfold decodeTrailer at h
  split at h
  · cases h; exact .inl rfl
  · next hl =>
    split at h
    · cases h
    · next bytes hb =>
      split at h <;> cases h
      · next e => exact .inr ⟨Nat.le_of_not_lt hl, e ▸ hb, rfl⟩
      · exact .inl rfl

/-- All a next state between commands can be: waiting, or the oldest move. -/
theorem hostStep_next {s t : State} (h : hostStep s = .next t) :
    (s.host = [] ∧ t = s) ∨ ∃ m rest, s.host = m :: rest ∧ hostMove m { s with host := rest } = .next t := by
  unfold hostStep at h
  split at h
  · next e => cases h; exact .inl ⟨e, rfl⟩
  · next m rest e => exact .inr ⟨m, rest, e, h⟩

/-- The host moves that write one register or buffer. -/
inductive Writes : HostMove → State → State → Prop where
  | width (v s) : Writes (.writeHdrWidth v) s { s with hdrWidth := v }
  | height (v s) : Writes (.writeHdrHeight v) s { s with hdrHeight := v }
  | channels (v s) : Writes (.writeHdrChannels v) s { s with hdrChannels := v }
  | colorspace (v s) : Writes (.writeHdrColorspace v) s { s with hdrColorspace := v }
  | inLen (v s) : Writes (.writeInLen v) s { s with inLen := v }
  | pixels (v s) : Writes (.supplyPixels v) s { s with inPixels := v }
  | bytes (v s) : Writes (.supplyBytes v) s { s with inBytes := v }
  | byteSink (v s) : Writes (.supplyByteSink v) s { s with outCapacity := v }
  | pixelSink (v s) : Writes (.supplyPixelSink v) s { s with pixelCapacity := v }

theorem writeHeader_next {s w t : State} (h : writeHeader s w = .next t) :
    t = w ∧ (s.phase = .idle ∨ s.cmd = .encode) := by
  unfold writeHeader at h
  split at h <;> cases h
  next e => exact ⟨rfl, by simpa [headerWritable] using e⟩

/-- A header register, if that is what a move writes, was writable (R28). -/
def headerMove : HostMove → Bool
  | .writeHdrWidth _ => true
  | .writeHdrHeight _ => true
  | .writeHdrChannels _ => true
  | .writeHdrColorspace _ => true
  | .writeCmd _ => false
  | .writeInLen _ => false
  | .supplyPixels _ => false
  | .supplyBytes _ => false
  | .supplyByteSink _ => false
  | .supplyPixelSink _ => false
  | .takeResult => false

/-- All a host move can do (R28, R33). -/
theorem hostMove_next {m : HostMove} {s t : State} (h : hostMove m s = .next t) :
    (∃ c, m = .writeCmd c ∧ s.phase = .idle ∧ t = startCommand c s) ∨
    (m = .takeResult ∧ s.phase = .done ∧ t = returnToIdle s) ∨
    (m = .takeResult ∧ s.phase = .failed ∧ t = returnToIdle (discardLength s)) ∨
    (Writes m s t ∧ (headerMove m = true → s.phase = .idle ∨ s.cmd = .encode)) := by
  cases m with
  | writeCmd c =>
    simp only [hostMove, writeCmd] at h
    split at h <;> cases h
    next e => exact .inl ⟨c, rfl, e, rfl⟩
  | takeResult =>
    obtain ⟨e, rfl⟩ | ⟨e, rfl⟩ := takeResult_next h
    · exact .inr (.inl ⟨rfl, e, rfl⟩)
    · exact .inr (.inr (.inl ⟨rfl, e, rfl⟩))
  | writeHdrWidth v => obtain ⟨rfl, e⟩ := writeHeader_next h; exact .inr (.inr (.inr ⟨.width _ _, fun _ => e⟩))
  | writeHdrHeight v => obtain ⟨rfl, e⟩ := writeHeader_next h; exact .inr (.inr (.inr ⟨.height _ _, fun _ => e⟩))
  | writeHdrChannels v => obtain ⟨rfl, e⟩ := writeHeader_next h; exact .inr (.inr (.inr ⟨.channels _ _, fun _ => e⟩))
  | writeHdrColorspace v => obtain ⟨rfl, e⟩ := writeHeader_next h; exact .inr (.inr (.inr ⟨.colorspace _ _, fun _ => e⟩))
  | writeInLen v => cases h; exact .inr (.inr (.inr ⟨.inLen _ _, nofun⟩))
  | supplyPixels v => cases h; exact .inr (.inr (.inr ⟨.pixels _ _, nofun⟩))
  | supplyBytes v => cases h; exact .inr (.inr (.inr ⟨.bytes _ _, nofun⟩))
  | supplyByteSink v => cases h; exact .inr (.inr (.inr ⟨.byteSink _ _, nofun⟩))
  | supplyPixelSink v => cases h; exact .inr (.inr (.inr ⟨.pixelSink _ _, nofun⟩))

/-- A step of a running command, by its command and phase. -/
theorem running_next {s t : State} (hr : Running s) (h : step s = .next t) :
    (s.cmd = .encode ∧ s.phase = .header ∧ encodeHeader s = .next t) ∨
    (s.cmd = .encode ∧ s.phase = .body ∧ encodeBody s = .next t) ∨
    (s.cmd = .encode ∧ s.phase = .trailer ∧ encodeTrailer s = .next t) ∨
    (s.cmd = .decode ∧ s.phase = .header ∧ decodeHeader s = .next t) ∨
    (s.cmd = .decode ∧ s.phase = .body ∧ decodeBody exec s = .next t) ∨
    (s.cmd = .decode ∧ s.phase = .trailer ∧ decodeTrailer s = .next t) := by
  obtain ⟨hn, -⟩ | ⟨hc, hp, he⟩ | ⟨hc, hp, he⟩ | ⟨hc, hp, he⟩ | ⟨hc, hp, he⟩ | ⟨hc, hp, he⟩ | ⟨hc, hp, he⟩ :=
    step_phases s
  · exact absurd hr hn
  all_goals
    rw [he] at h
    simp [hc, hp, h]

/-- A step between commands: waiting, or all the oldest host move can do. -/
theorem between_next {s t : State} (hr : ¬ Running s) (h : step s = .next t) :
    (s.host = [] ∧ t = s) ∨
    ∃ m rest, s.host = m :: rest ∧
      ((∃ c, m = .writeCmd c ∧ s.phase = .idle ∧ t = startCommand c { s with host := rest }) ∨
       (m = .takeResult ∧ s.phase = .done ∧ t = returnToIdle { s with host := rest }) ∨
       (m = .takeResult ∧ s.phase = .failed ∧ t = returnToIdle (discardLength { s with host := rest })) ∨
       (Writes m { s with host := rest } t ∧ (headerMove m = true → s.phase = .idle ∨ s.cmd = .encode))) := by
  rw [step_between hr] at h
  obtain h | ⟨m, rest, e, h⟩ := hostStep_next h
  · exact .inl h
  · exact .inr ⟨m, rest, e, hostMove_next h⟩

end Sys2Proof.Machine
end

