-- ==== Sys2Proof/Tests/Slice0.lean ====
section
/-! SUPPORT. The model's own tests (expected values from 95_test_vectors.md and from the tables of 30_encoding.md, by hand),
the WellFormed smoke tests, and a witness for the hypotheses of every statement that has some. -/

namespace Sys2Proof.Machine.Tests

/-! ### Helpers -/

/-- Whether a step answers a next state with a property. -/
def nextIs (o : Outcome) (p : State → Bool) : Bool :=
  match o with
  | .next t => p t
  | .fault _ => false
  | .refused _ => false

/-- Whether a step is refused for a reason. -/
def refusedAs (o : Outcome) (r : Refusal) : Bool :=
  match o with
  | .next _ => false
  | .fault _ => false
  | .refused r' => decide (r = r')

/-- A 4-channel 1 by 1 header with the default magic. -/
def smallHeader : List Byte := headerBytes Config.standard.magic ⟨1#32, 1#32, 4#8, 0#8⟩

/-- DECODE at its header, with these bytes handed over. -/
def decodeStart (bytes : List Byte) : State :=
  { State.reset with phase := .header, cmd := .decode, inBytes := bytes, inLen := bytes.length, pixelCapacity := 1 }

/-- DECODE in its body at these bytes, with `prev` and the number of pixels owed. -/
def decodeAt (bytes : List Byte) (prev : Pixel) (owed : Nat) : State :=
  { State.reset with
    phase := .body
    cmd := .decode
    inBytes := bytes
    inLen := bytes.length
    prev := prev
    n := owed }

/-- ENCODE at its header: a one-row image of these pixels. -/
def encodeStart (channels : Byte) (pixels : List Pixel) (capacity : Nat) : State :=
  { State.reset with
    phase := .header
    hdrWidth := BitVec.ofNat 32 pixels.length
    hdrHeight := 1#32
    hdrChannels := channels
    inPixels := pixels
    inLen := pixels.length
    outCapacity := capacity }

/-- ENCODE in its body at the first of these pixels. -/
def encodeAt (pixels : List Pixel) (prev : Pixel) (run : Nat) : State :=
  { State.reset with
    phase := .body
    hdrChannels := 4#8
    inPixels := pixels
    inLen := pixels.length
    n := pixels.length
    prev := prev
    run := run
    outCapacity := 6 }

/-! ### WellFormed: an ill-formed term for each check -/

theorem test_wf_diff_dr : (Instr.diff 2 0 0).wf = false ∧ (Instr.diff (-3) 0 0).wf = false := by decide
theorem test_wf_diff_dg : (Instr.diff 0 2 0).wf = false ∧ (Instr.diff 0 (-3) 0).wf = false := by decide
theorem test_wf_diff_db : (Instr.diff 0 0 2).wf = false ∧ (Instr.diff 0 0 (-3)).wf = false := by decide
theorem test_wf_luma_dg : (Instr.luma 32 0 0).wf = false ∧ (Instr.luma (-33) 0 0).wf = false := by decide
theorem test_wf_luma_dr : (Instr.luma 0 8 0).wf = false ∧ (Instr.luma 0 (-9) 0).wf = false := by decide
theorem test_wf_luma_db : (Instr.luma 0 0 8).wf = false ∧ (Instr.luma 0 0 (-9)).wf = false := by decide
theorem test_wf_run : (Instr.run 0).wf = false ∧ (Instr.run 63).wf = false := by decide

/-! ### Decoding words written out from R75 to R79 -/

theorem test_decode_rgb : decode [0b11111110#8, 1#8, 2#8, 3#8, 9#8] = .ok (.rgb 1#8 2#8 3#8, [9#8]) := by rfl
theorem test_decode_rgba : decode [0b11111111#8, 1#8, 2#8, 3#8, 4#8] = .ok (.rgba 1#8 2#8 3#8 4#8, []) := by rfl
theorem test_decode_index : decode [0b00111111#8] = .ok (.index 63#6, []) := by rfl
/-- V-DIFF-4: `DIFF 1, -1, 1` is 77; the three fields differ, so a swap would show. -/
theorem test_decode_diff : decode [0b01110111#8] = .ok (.diff 1 (-1) 1, []) := by rfl
theorem test_decode_diff_order : decode [0b01000110#8] = .ok (.diff (-2) (-1) 0, []) := by rfl
/-- P2: `LUMA -20, 3, -3` is 8C B5. -/
theorem test_decode_luma : decode [0b10001100#8, 0b10110101#8] = .ok (.luma (-20) 3 (-3), []) := by rfl
theorem test_decode_run : decode [0b11000100#8] = .ok (.run 5, []) := by rfl
theorem test_decode_rejects_by_name : decode [] = .error .noLeadingByte ∧
    decode [0xFE#8, 0#8, 0#8] = .error (.operandsMissing .rgb) ∧
    decode [0xFF#8, 0#8, 0#8, 0#8] = .error (.operandsMissing .rgba) ∧
    decode [0x80#8] = .error (.operandsMissing .luma) := ⟨rfl, rfl, rfl, rfl⟩

/-- P1's listing: the mnemonics and their bytes. -/
theorem test_encode_p1 :
    encode (.rgba 10#8 20#8 30#8 255#8) ++ encode (.diff 1 (-1) 1) ++ encode (.index 9#6) ++ encode (.run 1) ++
      encode (.luma 4 2 (-6)) ++ encode (.rgb 200#8 0#8 0#8) =
    [0xFF#8, 0x0A#8, 0x14#8, 0x1E#8, 0xFF#8, 0x77#8, 0x09#8, 0xC0#8, 0xA4#8, 0xA2#8, 0xFE#8, 0xC8#8, 0#8, 0#8] := by
  decide

/-- V-HDR-2. -/
theorem test_header_big_endian :
    headerBytes Config.standard.magic ⟨0x01020304#32, 256#32, 3#8, 1#8⟩ =
      [0x71#8, 0x6F#8, 0x69#8, 0x66#8, 1#8, 2#8, 3#8, 4#8, 0#8, 0#8, 1#8, 0#8, 3#8, 1#8] := by decide

/-! ### Arithmetic (V-HASH, R126) -/

theorem test_hash : slotNumber ⟨255#8, 255#8, 255#8, 255#8⟩ = 38 ∧ hash ⟨10#8, 20#8, 30#8, 255#8⟩ = 9#6 ∧
    hash ⟨128#8, 128#8, 128#8, 255#8⟩ = 53#6 ∧ hash ⟨7#8, 7#8, 7#8, 7#8⟩ = 54#6 := by decide
theorem test_delta_wraps : delta 0#8 255#8 = 1 ∧ delta 255#8 0#8 = -1 ∧ delta 234#8 10#8 = -32 ∧ delta 128#8 0#8 = -128 := by
  decide

/-! ### Chunks, one step each -/

/-- V-DEC-5: RGB keeps `prev.a`; the slot is written. -/
theorem test_exec_rgb : nextIs (exec (.rgb 1#8 2#8 3#8) (decodeAt [0xFE#8, 1#8, 2#8, 3#8] Pixel.zero 1)) (fun t =>
    decide (t.prev = ⟨1#8, 2#8, 3#8, 0#8⟩ ∧ lookup 34#6 t = ⟨1#8, 2#8, 3#8, 0#8⟩ ∧ t.pos = 4 ∧ t.count = 1)) = true := by
  decide
/-- V-ERR-DEC-8: RGB needs four bytes. -/
theorem test_exec_rgb_truncated : nextIs (exec (.rgb 10#8 0#8 0#8) (decodeAt [0xFE#8, 10#8] Pixel.zero 1)) (fun t =>
    decide (t.status = .failure .truncatedStream ∧ t.phase = .failed ∧ t.pos = 0)) = true := by decide
/-- V-DEC-12: RGBA's alpha is the fourth byte. -/
theorem test_exec_rgba : nextIs (exec (.rgba 1#8 2#8 3#8 7#8) (decodeAt [0xFF#8, 1#8, 2#8, 3#8, 7#8] Pixel.zero 1))
    (fun t => decide (t.outPixels = [⟨1#8, 2#8, 3#8, 7#8⟩] ∧ lookup 47#6 t = ⟨1#8, 2#8, 3#8, 7#8⟩)) = true := by decide
/-- V-DEC-7: a slot never written gives `ZERO`, and `prev` follows it. -/
theorem test_exec_index : nextIs (exec (.index 5#6) (decodeAt [5#8] ⟨1#8, 2#8, 3#8, 4#8⟩ 1)) (fun t =>
    decide (t.prev = Pixel.zero ∧ t.outPixels = [Pixel.zero] ∧ t.pos = 1)) = true := by decide
/-- V-DEC-1: DIFF wraps below zero. -/
theorem test_exec_diff : nextIs (exec (.diff (-2) (-2) (-2)) (decodeAt [0x40#8] Pixel.zero 1)) (fun t =>
    decide (t.prev = ⟨254#8, 254#8, 254#8, 0#8⟩ ∧ lookup 34#6 t = t.prev)) = true := by decide
/-- P2: `LUMA -20, 3, -3` from (0,2,4,0). -/
theorem test_exec_luma : nextIs (exec (.luma (-20) 3 (-3)) (decodeAt [0x8C#8, 0xB5#8] ⟨0#8, 2#8, 4#8, 0#8⟩ 1)) (fun t =>
    decide (t.prev = ⟨239#8, 238#8, 237#8, 0#8⟩ ∧ lookup 46#6 t = t.prev ∧ t.pos = 2)) = true := by decide
/-- V-DEC-11: RUN 5 clipped to the two pixels owed. -/
theorem test_exec_run : nextIs (exec (.run 5) (decodeAt [0xC4#8] ⟨7#8, 7#8, 7#8, 7#8⟩ 2)) (fun t =>
    decide (t.outPixels = [⟨7#8, 7#8, 7#8, 7#8⟩, ⟨7#8, 7#8, 7#8, 7#8⟩] ∧ t.count = 2 ∧ t.pos = 1)) = true := by decide

/-! ### The classifier (V-ENC, E4, V-RGBA-3) -/

theorem test_classify_diff : classify ⟨0#8, 255#8, 1#8, 255#8⟩ ⟨255#8, 0#8, 0#8, 255#8⟩ Cache.zero = .diff 1 (-1) 1 := by
  decide
theorem test_classify_luma :
    classify ⟨250#8, 250#8, 250#8, 255#8⟩ ⟨0#8, 0#8, 0#8, 255#8⟩ Cache.zero = .luma (-6) 0 0 := by decide
theorem test_classify_rgb :
    classify ⟨108#8, 100#8, 100#8, 255#8⟩ ⟨100#8, 100#8, 100#8, 255#8⟩ Cache.zero = .rgb 108#8 100#8 100#8 := by decide
theorem test_classify_rgba :
    classify ⟨11#8, 10#8, 10#8, 254#8⟩ ⟨10#8, 10#8, 10#8, 255#8⟩ Cache.zero = .rgba 11#8 10#8 10#8 254#8 := by decide
theorem test_classify_index_before_alpha :
    classify ⟨1#8, 2#8, 3#8, 128#8⟩ ⟨1#8, 2#8, 3#8, 255#8⟩ (cacheSet Cache.zero 34#6 ⟨1#8, 2#8, 3#8, 128#8⟩) =
      .index 34#6 := by decide

/-! ### Steps of the two commands -/

/-- V-RUN-1's last step: the 62nd equal pixel emits FD and the run restarts. -/
theorem test_encode_run_62 : nextIs (step (encodeAt [Pixel.zero, Pixel.zero] Pixel.zero 61)) (fun t =>
    decide (t.outBytes = [0xFD#8] ∧ t.run = 0 ∧ t.k = 1)) = true := by decide
/-- P1, k = 4: the pending run is flushed before the LUMA chunk. -/
theorem test_encode_flush_then_chunk :
    nextIs (step (encodeAt [⟨16#8, 24#8, 28#8, 255#8⟩] ⟨10#8, 20#8, 30#8, 255#8⟩ 1)) (fun t =>
      decide (t.outBytes = [0xC0#8, 0xA4#8, 0xA2#8] ∧ t.run = 0 ∧ lookup 33#6 t = ⟨16#8, 24#8, 28#8, 255#8⟩)) = true := by
  decide
/-- V-ERR-ENC-6: dimensions are checked first. -/
theorem test_encode_error_order :
    nextIs (step { encodeStart 0#8 [] 0 with hdrHeight := 5#32 }) (fun t =>
      decide (statusCode t.status = 1#3 ∧ t.phase = .failed)) = true := by decide
/-- V-HDR-1 as ENCODE emits it. -/
theorem test_encode_header : nextIs (step (encodeStart 4#8 [Pixel.zero] 14)) (fun t =>
    decide (t.outBytes = [0x71#8, 0x6F#8, 0x69#8, 0x66#8, 0#8, 0#8, 0#8, 1#8, 0#8, 0#8, 0#8, 1#8, 4#8, 0#8] ∧
      t.phase = .body)) = true := by decide
/-- E6a: a corrupted magic. -/
theorem test_decode_bad_magic :
    nextIs (step (decodeStart ([0x71#8, 0x6F#8, 0x69#8, 0x67#8] ++ smallHeader.drop 4))) (fun t =>
      decide (statusCode t.status = 3#3)) = true := by decide
/-- E6c: a wrong end marker. -/
theorem test_decode_bad_trailer :
    nextIs (step { decodeStart [0#8, 0#8, 0#8, 0#8, 0#8, 0#8, 0#8, 2#8] with phase := .trailer }) (fun t =>
      decide (statusCode t.status = 5#3)) = true := by decide
/-- A word placed by `withFetchWord` is the next chunk that runs. -/
theorem test_withFetchWord : decodeTableWord 16 0xA1A3 = some (.luma 3 2 (-7)) ∧
    nextIs (step (State.reset.withFetchWord 16 0xA1A3)) (fun t => decide (t.pos = 2 ∧ t.count = 1)) = true := by decide

/-! ### Witnesses: a state and operands that meet the hypotheses of each statement, each clause at a boundary -/

theorem witness_DecodeOfEncodeIsTheChunk :
    (Instr.diff (-2) 1 (-2)).wf = true ∧ (Instr.luma (-32) 7 (-8)).wf = true ∧ (Instr.run 1).wf = true ∧
    (Instr.run 62).wf = true ∧ (Instr.rgb 0#8 1#8 2#8).wf = true ∧ (Instr.rgba 0#8 1#8 2#8 3#8).wf = true ∧
    (Instr.index 63#6).wf = true := by decide

theorem witness_EncodeOfDecodeIsTheWord : decode [0xBF#8, 0xF0#8] = .ok (.luma 31 7 (-8), []) := by rfl

/-- The ends of every range of leading bytes (R80). -/
theorem witness_OperandsAreReadFromTheirFields :
    (0x3F#8).toNat ≤ 0x3F ∧ 0x40 ≤ (0x40#8).toNat ∧ (0x7F#8).toNat ≤ 0x7F ∧ 0x80 ≤ (0x80#8).toNat ∧
    (0xBF#8).toNat ≤ 0xBF ∧ 0xC0 ≤ (0xC0#8).toNat ∧ (0xFD#8).toNat ≤ 0xFD ∧ (0xFE#8).toNat = 0xFE ∧
    (0xFF#8).toNat = 0xFF := by decide

/-- The leading bytes at the ends of every range of R80. -/
theorem witness_LeadingByteFixesTheLength :
    decode [0x3F#8] = .ok (.index 63#6, []) ∧ decode [0x40#8] = .ok (.diff (-2) (-2) (-2), []) ∧
    decode [0x7F#8] = .ok (.diff 1 1 1, []) ∧ decode [0x80#8, 0#8] = .ok (.luma (-32) (-8) (-8), []) ∧
    decode [0xBF#8, 0xFF#8] = .ok (.luma 31 7 7, []) ∧ decode [0xC0#8] = .ok (.run 1, []) ∧
    decode [0xFD#8] = .ok (.run 62, []) ∧ decode [0xFE#8, 0#8, 0#8, 0#8] = .ok (.rgb 0#8 0#8 0#8, []) ∧
    decode [0xFF#8, 0#8, 0#8, 0#8, 0#8] = .ok (.rgba 0#8 0#8 0#8 0#8, []) :=
  ⟨rfl, rfl, rfl, rfl, rfl, rfl, rfl, rfl, rfl⟩

theorem witness_LumaTestIgnoresWrapping :
    inRange (-32) 31 (delta 224#8 0#8) ∧ inRange (-32) 31 (delta 31#8 0#8) := by decide

theorem witness_RgbChunkDecodes : (decodeAt [0xFE#8, 0#8, 0#8, 0#8] Pixel.zero 1).pos + 4 ≤
    (decodeAt [0xFE#8, 0#8, 0#8, 0#8] Pixel.zero 1).inLen ∧
    (decodeAt [0xFE#8, 0#8, 0#8] Pixel.zero 1).inLen < (decodeAt [0xFE#8, 0#8, 0#8] Pixel.zero 1).pos + 4 := by decide

theorem witness_RgbaChunkDecodes : (decodeAt [0xFF#8, 0#8, 0#8, 0#8, 0#8] Pixel.zero 1).pos + 5 ≤
    (decodeAt [0xFF#8, 0#8, 0#8, 0#8, 0#8] Pixel.zero 1).inLen ∧
    (decodeAt [0xFF#8, 0#8, 0#8, 0#8] Pixel.zero 1).inLen < (decodeAt [0xFF#8, 0#8, 0#8, 0#8] Pixel.zero 1).pos + 5 := by
  decide

theorem witness_LumaChunkDecodes : (decodeAt [0x80#8, 0#8] Pixel.zero 1).pos + 2 ≤
    (decodeAt [0x80#8, 0#8] Pixel.zero 1).inLen ∧
    (decodeAt [0x80#8] Pixel.zero 1).inLen < (decodeAt [0x80#8] Pixel.zero 1).pos + 2 := by decide

/-- Both clauses of the count: a run that fits exactly, and one that is clipped. -/
theorem witness_RunChunkDecodes : 5 ≤ (decodeAt [0xC4#8] Pixel.zero 5).n - (decodeAt [0xC4#8] Pixel.zero 5).count ∧
    (decodeAt [0xC4#8] Pixel.zero 2).n - (decodeAt [0xC4#8] Pixel.zero 2).count ≤ 5 := by decide

theorem witness_StepRunsTheDecodedChunk : ∃ s : State, s.phase = .body ∧ s.cmd = .decode ∧ s.count < s.n ∧
    decode (unread s) = .ok (.run 5, []) := ⟨decodeAt [0xC4#8] Pixel.zero 5, rfl, rfl, by decide, rfl⟩

/-- No leading byte; a leading byte with one operand byte missing; a chunk that fits exactly. -/
theorem witness_TruncationIsRaisedBeforeTheChunk :
    (∃ s : State, s.phase = .body ∧ s.cmd = .decode ∧ s.count < s.n ∧ s.inBytes.length = s.inLen ∧ s.inLen ≤ s.pos) ∧
    (∃ s : State, s.phase = .body ∧ s.cmd = .decode ∧ s.count < s.n ∧ s.inBytes.length = s.inLen ∧
      inByte s.pos s = some 0xFE#8 ∧ s.inLen < s.pos + chunkLength (kind 0xFE#8)) ∧
    (∃ s : State, s.phase = .body ∧ s.cmd = .decode ∧ s.count < s.n ∧ s.inBytes.length = s.inLen ∧
      inByte s.pos s = some 0xFE#8 ∧ s.pos + chunkLength (kind 0xFE#8) ≤ s.inLen) :=
  ⟨⟨decodeAt [] Pixel.zero 1, rfl, rfl, by decide, rfl, by decide⟩,
    ⟨decodeAt [0xFE#8, 0#8, 0#8] Pixel.zero 1, rfl, rfl, by decide, rfl, rfl, by decide⟩,
    ⟨decodeAt [0xFE#8, 0#8, 0#8, 0#8] Pixel.zero 1, rfl, rfl, by decide, rfl, rfl, by decide⟩⟩

theorem witness_DecodeAcceptsAHeader : ∃ (s : State) (h : ImageHeader), s.phase = .header ∧ s.cmd = .decode ∧
    s.inBytes.length = s.inLen ∧ parseHeader s.inBytes = some (s.config.magic, h) ∧
    (h.channels = 3#8 ∨ h.channels = 4#8) ∧ h.width ≠ 0#32 ∧ h.height ≠ 0#32 ∧
    h.width.toNat * h.height.toNat ≤ s.pixelCapacity :=
  ⟨decodeStart smallHeader, ⟨1#32, 1#32, 4#8, 0#8⟩, rfl, rfl, rfl, by decide, by decide, by decide, by decide, by decide⟩

/-- Every cause of R200's BadHeader: 13 bytes, a wrong magic, channels 2 and 5, width 0, height 0. -/
theorem witness_DecodeRejectsABadHeader :
    ((decodeStart (smallHeader.take 13)).inLen < 14) ∧
    (parseHeader (0x70#8 :: smallHeader.drop 1) =
      some (⟨0x70#8, 0x6F#8, 0x69#8, 0x66#8⟩, ⟨1#32, 1#32, 4#8, 0#8⟩)) ∧
    (∀ ch ∈ [2#8, 5#8], parseHeader (headerBytes Config.standard.magic ⟨1#32, 1#32, ch, 0#8⟩) =
      some (Config.standard.magic, ⟨1#32, 1#32, ch, 0#8⟩) ∧ ch ≠ 3#8 ∧ ch ≠ 4#8) ∧
    (parseHeader (headerBytes Config.standard.magic ⟨0#32, 1#32, 4#8, 0#8⟩) =
      some (Config.standard.magic, ⟨0#32, 1#32, 4#8, 0#8⟩)) ∧
    (parseHeader (headerBytes Config.standard.magic ⟨1#32, 0#32, 4#8, 0#8⟩) =
      some (Config.standard.magic, ⟨1#32, 0#32, 4#8, 0#8⟩)) := by decide

theorem witness_DecodeRejectsABadHeader_state : ∃ s : State, s.phase = .header ∧ s.cmd = .decode ∧
    s.inBytes.length = s.inLen ∧ s.inLen < 14 := ⟨decodeStart (smallHeader.take 13), rfl, rfl, rfl, by decide⟩

theorem witness_DecodeRefusesAnImageOverCapacity : ∃ (s : State) (h : ImageHeader), s.phase = .header ∧
    s.cmd = .decode ∧ s.inBytes.length = s.inLen ∧ parseHeader s.inBytes = some (s.config.magic, h) ∧
    (h.channels = 3#8 ∨ h.channels = 4#8) ∧ h.width ≠ 0#32 ∧ h.height ≠ 0#32 ∧
    s.pixelCapacity < h.width.toNat * h.height.toNat :=
  ⟨decodeStart (headerBytes Config.standard.magic ⟨2#32, 1#32, 4#8, 0#8⟩), ⟨2#32, 1#32, 4#8, 0#8⟩, rfl, rfl, rfl,
    by decide, by decide, by decide, by decide, by decide⟩

/-- A good marker at the very end of the input, and one byte short of one. -/
theorem witness_DecodeChecksTheEndMarker :
    (∃ s : State, s.phase = .trailer ∧ s.cmd = .decode ∧ s.inBytes.length = s.inLen ∧
      (s.inBytes.drop s.pos).take 8 = [0#8, 0#8, 0#8, 0#8, 0#8, 0#8, 0#8, 1#8]) ∧
    (∃ s : State, s.phase = .trailer ∧ s.cmd = .decode ∧ s.inBytes.length = s.inLen ∧
      (s.inBytes.drop s.pos).take 8 ≠ [0#8, 0#8, 0#8, 0#8, 0#8, 0#8, 0#8, 1#8]) :=
  ⟨⟨{ decodeStart endMarker with phase := .trailer }, rfl, rfl, rfl, by decide⟩,
    ⟨{ decodeStart (endMarker.drop 1) with phase := .trailer }, rfl, rfl, rfl, by decide⟩⟩

theorem witness_BodyEndsAtThePixelCount :
    (∃ s : State, s.phase = .body ∧ s.cmd = .encode ∧ s.k = s.n) ∧
    (∃ s : State, s.phase = .body ∧ s.cmd = .decode ∧ s.count = s.n) :=
  ⟨⟨encodeAt [] Pixel.zero 0, rfl, rfl, rfl⟩, ⟨decodeAt [] Pixel.zero 0, rfl, rfl, rfl⟩⟩

/-- No pixels; one pixel too few; a good size with channels 2 and with channels 5. -/
theorem witness_EncodeRejectsABadImage :
    (encodeStart 4#8 [] 0).phase = .header ∧ (encodeStart 4#8 [] 0).cmd = .encode ∧
    (encodeStart 4#8 [] 0).hdrWidth.toNat * (encodeStart 4#8 [] 0).hdrHeight.toNat = 0 ∧
    ((encodeStart 2#8 [Pixel.zero] 0).hdrWidth.toNat * (encodeStart 2#8 [Pixel.zero] 0).hdrHeight.toNat ≠ 0 ∧
      (encodeStart 2#8 [Pixel.zero] 0).hdrWidth.toNat * (encodeStart 2#8 [Pixel.zero] 0).hdrHeight.toNat =
        (encodeStart 2#8 [Pixel.zero] 0).inLen ∧
      (encodeStart 2#8 [Pixel.zero] 0).hdrChannels ≠ 3#8 ∧ (encodeStart 2#8 [Pixel.zero] 0).hdrChannels ≠ 4#8 ∧
      (encodeStart 5#8 [Pixel.zero] 0).hdrChannels ≠ 3#8 ∧ (encodeStart 5#8 [Pixel.zero] 0).hdrChannels ≠ 4#8) := by
  decide

theorem witness_EncodeEmitsTheHeader : ∃ s : State, s.phase = .header ∧ s.cmd = .encode ∧
    s.hdrWidth.toNat * s.hdrHeight.toNat ≠ 0 ∧ s.hdrWidth.toNat * s.hdrHeight.toNat = s.inLen ∧
    (s.hdrChannels = 3#8 ∨ s.hdrChannels = 4#8) ∧ 14 ≤ s.outCapacity :=
  ⟨encodeStart 3#8 [Pixel.zero] 14, rfl, rfl, by decide, by decide, by decide, by decide⟩

/-- The 62nd pixel of a run; the last pixel of the image; a run that goes on. -/
theorem witness_EncodeExtendsARun :
    (∃ s : State, s.phase = .body ∧ s.cmd = .encode ∧ s.k < s.n ∧ inPixel s.k s = some Pixel.zero ∧
      inputPixel s.hdrChannels Pixel.zero = s.prev ∧ s.run < 62 ∧ s.outBytes.length + 1 ≤ s.outCapacity ∧
      s.run + 1 = 62 ∧ s.k + 1 ≠ s.n) ∧
    (∃ s : State, s.phase = .body ∧ s.cmd = .encode ∧ s.k < s.n ∧ inPixel s.k s = some Pixel.zero ∧
      inputPixel s.hdrChannels Pixel.zero = s.prev ∧ s.run < 62 ∧ s.outBytes.length + 1 ≤ s.outCapacity ∧
      s.run + 1 ≠ 62 ∧ s.k + 1 = s.n) ∧
    (∃ s : State, s.phase = .body ∧ s.cmd = .encode ∧ s.k < s.n ∧ inPixel s.k s = some Pixel.zero ∧
      inputPixel s.hdrChannels Pixel.zero = s.prev ∧ s.run < 62 ∧ s.outBytes.length + 1 ≤ s.outCapacity ∧
      s.run + 1 ≠ 62 ∧ s.k + 1 ≠ s.n) :=
  ⟨⟨encodeAt [Pixel.zero, Pixel.zero] Pixel.zero 61, rfl, rfl, by decide, rfl, by decide, by decide, by decide,
      by decide, by decide⟩,
    ⟨encodeAt [Pixel.zero] Pixel.zero 0, rfl, rfl, by decide, rfl, by decide, by decide, by decide, by decide, by decide⟩,
    ⟨encodeAt [Pixel.zero, Pixel.zero] Pixel.zero 0, rfl, rfl, by decide, rfl, by decide, by decide, by decide,
      by decide, by decide⟩⟩

/-- With and without a pending run; an INDEX outcome and another. -/
theorem witness_EncodeEmitsAChunk :
    (∃ s : State, s.phase = .body ∧ s.cmd = .encode ∧ s.k < s.n ∧ inPixel s.k s = some ⟨0#8, 0#8, 0#8, 0#8⟩ ∧
      inputPixel s.hdrChannels ⟨0#8, 0#8, 0#8, 0#8⟩ ≠ s.prev ∧ s.run ≤ 62 ∧ s.outBytes.length + 6 ≤ s.outCapacity ∧
      s.run = 0 ∧ (classify (inputPixel s.hdrChannels ⟨0#8, 0#8, 0#8, 0#8⟩) s.prev s.cache).kind = .index) ∧
    (∃ s : State, s.phase = .body ∧ s.cmd = .encode ∧ s.k < s.n ∧ inPixel s.k s = some ⟨1#8, 0#8, 0#8, 9#8⟩ ∧
      inputPixel s.hdrChannels ⟨1#8, 0#8, 0#8, 9#8⟩ ≠ s.prev ∧ s.run ≤ 62 ∧ s.outBytes.length + 6 ≤ s.outCapacity ∧
      s.run = 62 ∧ (classify (inputPixel s.hdrChannels ⟨1#8, 0#8, 0#8, 9#8⟩) s.prev s.cache).kind ≠ .index) :=
  ⟨⟨encodeAt [⟨0#8, 0#8, 0#8, 0#8⟩] ⟨5#8, 5#8, 5#8, 5#8⟩ 0, rfl, rfl, by decide, rfl, by decide, by decide, by decide,
      rfl, by decide⟩,
    ⟨encodeAt [⟨1#8, 0#8, 0#8, 9#8⟩] Pixel.zero 62, rfl, rfl, by decide, rfl, by decide, by decide, by decide, rfl,
      by decide⟩⟩

theorem witness_ThreeChannelAlphaIsSupplied : (3#8 : Byte) = 3#8 ∧ (4#8 : Byte) ≠ 3#8 := by decide

/-- A pixel for each tier: hit; alpha differs; small; luma at its edge; none. -/
theorem witness_ClassifierTiersInOrder :
    (∃ i : BitVec 6, i.toNat = slotNumber Pixel.zero ∧ cacheAt Cache.zero i = Pixel.zero) ∧
    (cacheAt Cache.zero (hash ⟨0#8, 0#8, 0#8, 1#8⟩) ≠ ⟨0#8, 0#8, 0#8, 1#8⟩ ∧ (1#8 : Byte) ≠ 0#8) ∧
    (cacheAt Cache.zero (hash ⟨1#8, 0#8, 0#8, 0#8⟩) ≠ ⟨1#8, 0#8, 0#8, 0#8⟩ ∧
      diffFits (delta 1#8 0#8) (delta 0#8 0#8) (delta 0#8 0#8)) ∧
    (cacheAt Cache.zero (hash ⟨38#8, 31#8, 38#8, 0#8⟩) ≠ ⟨38#8, 31#8, 38#8, 0#8⟩ ∧
      ¬ diffFits (delta 38#8 0#8) (delta 31#8 0#8) (delta 38#8 0#8) ∧ lumaFits (delta 31#8 0#8) 7 7) ∧
    (cacheAt Cache.zero (hash ⟨32#8, 32#8, 32#8, 0#8⟩) ≠ ⟨32#8, 32#8, 32#8, 0#8⟩ ∧
      ¬ diffFits (delta 32#8 0#8) (delta 32#8 0#8) (delta 32#8 0#8) ∧ ¬ lumaFits (delta 32#8 0#8) 0 0) := by
  refine ⟨⟨0#6, by decide, by decide⟩, ?_, ?_, ?_, ?_⟩ <;> decide

theorem witness_ChunkDecodesToItsPixel :
    (⟨1#8, 2#8, 3#8, 4#8⟩ : Pixel) ≠ (decodeAt [0#8, 0#8, 0#8, 0#8, 0#8] Pixel.zero 1).prev ∧
    (decodeAt [0#8, 0#8, 0#8, 0#8, 0#8] Pixel.zero 1).pos + 5 ≤ (decodeAt [0#8, 0#8, 0#8, 0#8, 0#8] Pixel.zero 1).inLen := by
  decide

theorem witness_ThreeChannelImagesStartWithRgba : ∃ s : State, s.phase = .body ∧ s.cmd = .encode ∧ s.k = 0 ∧ s.k < s.n ∧
    s.run = 0 ∧ s.prev = Pixel.zero ∧ s.cache = Cache.zero ∧ s.hdrChannels = 3#8 ∧ inPixel 0 s = some Pixel.zero ∧
    s.outBytes.length + 5 ≤ s.outCapacity :=
  ⟨{ encodeAt [Pixel.zero] Pixel.zero 0 with hdrChannels := 3#8 }, rfl, rfl, rfl, by decide, rfl, rfl, rfl, rfl, rfl,
    by decide⟩

/-- A sink that the stream fills exactly, without and with a pending run. -/
theorem witness_EncodeEndsTheStream :
    (∃ s : State, s.phase = .trailer ∧ s.cmd = .encode ∧ s.run ≤ 62 ∧ s.run = 0 ∧
      s.outBytes.length + 8 = s.outCapacity) ∧
    (∃ s : State, s.phase = .trailer ∧ s.cmd = .encode ∧ s.run ≤ 62 ∧ s.run = 62 ∧
      s.outBytes.length + 9 = s.outCapacity) :=
  ⟨⟨{ encodeAt [] Pixel.zero 0 with phase := .trailer, outCapacity := 8 }, rfl, rfl, by decide, rfl, rfl⟩,
    ⟨{ encodeAt [] Pixel.zero 62 with phase := .trailer, outCapacity := 9 }, rfl, rfl, by decide, rfl, rfl⟩⟩

theorem witness_PowerOnWaitsInIdle : ∃ s : State, s.phase = .idle ∧ s.host = [] := ⟨State.reset, rfl, rfl⟩

theorem witness_EveryCommandStartsFresh :
    (∃ s : State, s.phase = .idle ∧ s.host = .writeCmd .encode :: []) ∧
    (∃ s : State, s.phase = .idle ∧ s.host = .writeCmd .decode :: []) :=
  ⟨⟨{ State.reset with host := [.writeCmd .encode] }, rfl, rfl⟩,
    ⟨{ State.reset with host := [.writeCmd .decode] }, rfl, rfl⟩⟩

/-- In IDLE, in DONE after ENCODE, and in FAILED and DONE after DECODE, where the header registers are read-only. -/
theorem witness_HostMovesWriteTheirRegister :
    (∃ s : State, s.phase = .idle ∧ s.host = .writeHdrWidth 7#32 :: []) ∧
    (∃ s : State, s.phase = .done ∧ s.cmd = .encode ∧ s.host = .writeHdrChannels 3#8 :: []) ∧
    (∃ s : State, s.phase = .failed ∧ s.phase ≠ .idle ∧ s.cmd = .decode ∧ s.host = .writeHdrWidth 7#32 :: []) ∧
    (∃ s : State, s.phase = .done ∧ s.phase ≠ .idle ∧ s.cmd = .decode ∧ s.host = .writeHdrColorspace 1#8 :: []) :=
  ⟨⟨{ State.reset with host := [.writeHdrWidth 7#32] }, rfl, rfl⟩,
    ⟨{ State.reset with phase := .done, host := [.writeHdrChannels 3#8] }, rfl, rfl, rfl⟩,
    ⟨{ State.reset with phase := .failed, cmd := .decode, host := [.writeHdrWidth 7#32] }, rfl, by decide, rfl, rfl⟩,
    ⟨{ State.reset with phase := .done, cmd := .decode, host := [.writeHdrColorspace 1#8] }, rfl, by decide, rfl, rfl⟩⟩

theorem witness_TakingTheResultReturnsToIdle :
    (∃ s : State, s.host = .takeResult :: [] ∧ s.phase = .done) ∧
    (∃ s : State, s.host = .takeResult :: [] ∧ s.phase = .failed ∧ s.status = .failure .badTrailer) :=
  ⟨⟨{ State.reset with host := [.takeResult], phase := .done }, rfl, rfl⟩,
    ⟨{ State.reset with host := [.takeResult], phase := .failed, status := .failure .badTrailer }, rfl, rfl, rfl⟩⟩

/-- Two DECODEs that ended with OK in two different ways: other working registers, caches, outputs and headers. -/
theorem witness_NothingOfACommandSurvives : ∃ s s' : State, s.host = .takeResult :: [] ∧ s'.host = s.host ∧
    s.phase = .done ∧ s'.phase = s.phase ∧ s'.config = s.config ∧ s'.cmd = s.cmd ∧ s.cmd = .decode ∧
    s'.status = s.status ∧ s'.inLen = s.inLen ∧ s'.inBytes = s.inBytes ∧ s'.inPixels = s.inPixels ∧
    s'.outCapacity = s.outCapacity ∧ s'.pixelCapacity = s.pixelCapacity ∧ s'.freeCount = s.freeCount ∧
    s'.outLen = s.outLen ∧ s'.prev ≠ s.prev ∧ s'.outPixels ≠ s.outPixels ∧ s'.hdrWidth ≠ s.hdrWidth :=
  ⟨{ State.reset with host := [.takeResult], phase := .done, cmd := .decode },
    { State.reset with
      host := [.takeResult]
      phase := .done
      cmd := .decode
      prev := ⟨1#8, 1#8, 1#8, 1#8⟩
      outPixels := [Pixel.zero]
      hdrWidth := 1#32 },
    rfl, rfl, rfl, rfl, rfl, rfl, rfl, rfl, rfl, rfl, rfl, rfl, rfl, rfl, rfl, by decide, by decide, by decide⟩

/-- A running step of each command answers a next state. -/
theorem witness_RunningCommandsKeepTheirInputs :
    (∃ s t : State, Running s ∧ s.cmd = .encode ∧ step s = .next t) ∧
    (∃ s t : State, Running s ∧ s.cmd = .decode ∧ step s = .next t) :=
  ⟨⟨encodeStart 4#8 [] 0, _, .inl rfl, rfl, rfl⟩, ⟨decodeStart [], _, .inl rfl, rfl, rfl⟩⟩

theorem witness_MagicNeverChanges : ∃ s t : State, step s = .next t := ⟨State.reset, _, rfl⟩

theorem witness_PhasesMoveInOrder : ∃ s t : State, step s = .next t ∧ s.phase = .idle ∧ t.phase = .header :=
  ⟨{ State.reset with host := [.writeCmd .encode] }, _, rfl, rfl, rfl⟩

/-- Each clause: an end with OK, an end with a failure, a step that goes on, a step between commands. -/
theorem witness_StatusIsWrittenAtTheEnd :
    (∃ s t : State, step s = .next t ∧ Running s ∧ t.phase = .done) ∧
    (∃ s t : State, step s = .next t ∧ Running s ∧ t.phase = .failed) ∧
    (∃ s t : State, step s = .next t ∧ Running s ∧ t.phase ≠ .done ∧ t.phase ≠ .failed) ∧
    (∃ s t : State, step s = .next t ∧ ¬ Running s) :=
  ⟨⟨{ decodeStart endMarker with phase := .trailer }, _, rfl, .inr (.inr rfl), rfl⟩,
    ⟨decodeStart [], _, rfl, .inl rfl, rfl⟩,
    ⟨decodeAt [] Pixel.zero 0, _, rfl, .inr (.inl rfl), nofun, nofun⟩,
    ⟨State.reset, _, rfl, by decide⟩⟩

theorem witness_EachFailureHasItsCommandAndPlace :
    (∃ s t : State, Running s ∧ step s = .next t ∧ t.phase = .failed ∧ s.cmd = .encode) ∧
    (∃ s t : State, Running s ∧ step s = .next t ∧ t.phase = .failed ∧ s.cmd = .decode ∧ s.phase = .header) ∧
    (∃ s t : State, Running s ∧ step s = .next t ∧ t.phase = .failed ∧ s.cmd = .decode ∧ s.phase = .body) ∧
    (∃ s t : State, Running s ∧ step s = .next t ∧ t.phase = .failed ∧ s.cmd = .decode ∧ s.phase = .trailer) :=
  ⟨⟨encodeStart 4#8 [] 0, _, .inl rfl, rfl, rfl, rfl⟩, ⟨decodeStart [], _, .inl rfl, rfl, rfl, rfl, rfl⟩,
    ⟨decodeAt [] Pixel.zero 1, _, .inr (.inl rfl), rfl, rfl, rfl, rfl⟩,
    ⟨{ decodeStart [] with phase := .trailer }, _, .inr (.inr rfl), rfl, rfl, rfl, rfl⟩⟩

theorem witness_FailuresArePrecise :
    (∃ s t : State, s.phase = .body ∧ step s = .next t ∧ t.phase = .failed) ∧
    (∃ s t : State, s.phase = .trailer ∧ step s = .next t ∧ t.phase = .failed) :=
  ⟨⟨decodeAt [] Pixel.zero 1, _, rfl, rfl, rfl⟩, ⟨{ decodeStart [] with phase := .trailer }, _, rfl, rfl, rfl⟩⟩

/-- A state that meets the invariant: ENCODE at its start. -/
theorem witness_invariant (pixels : List Pixel) : Invariant (encodeStart 4#8 pixels 0) where
  cache := fun _ => cacheOwned_of_zero rfl
  encodeStart := fun _ _ => ⟨rfl, rfl, rfl, rfl, rfl, rfl, rfl⟩
  decodeStart := nofun
  encoding := by rintro - (h | h) <;> cases h
  decoding := nofun
  encodeTrailer := nofun
  decodeTrailer := nofun
  encodeDone := nofun
  decodeDone := nofun
  done := nofun
  failed := nofun
  encodeFailed := nofun

/-- One state for each of the three answers would need long states; this one meets the hypotheses and goes on. -/
theorem witness_OnlyCapacityStopsACommand : ∃ s : State, Invariant s ∧ Running s ∧ Launched s :=
  ⟨encodeStart 4#8 [] 0, witness_invariant [], .inl rfl, rfl⟩

theorem witness_EveryStepKeepsTheInvariant : ∃ s t : State, Invariant s ∧ step s = .next t :=
  ⟨encodeStart 4#8 [] 0, _, witness_invariant [], rfl⟩

/-- V-FIRST-1: one `ZERO` pixel, 23 bytes. -/
theorem witness_EncodeRunsToTheWholeStream : ∃ (s : State) (bytes : List Byte), s.phase = .header ∧ s.cmd = .encode ∧
    s.inPixels.length = s.inLen ∧ encodeImage s.config.magic (imageHeader s) s.inPixels = .ok bytes ∧
    bytes.length ≤ s.outCapacity :=
  ⟨encodeStart 4#8 [Pixel.zero] 23, smallHeader ++ [0xC0#8] ++ endMarker, rfl, rfl, rfl, rfl, by decide⟩

theorem witness_EncodeOverCapacityIsRefused : ∃ (s : State) (bytes : List Byte), s.phase = .header ∧ s.cmd = .encode ∧
    s.inPixels.length = s.inLen ∧ encodeImage s.config.magic (imageHeader s) s.inPixels = .ok bytes ∧
    s.outCapacity < bytes.length :=
  ⟨encodeStart 4#8 [Pixel.zero] 22, smallHeader ++ [0xC0#8] ++ endMarker, rfl, rfl, rfl, rfl, by decide⟩

/-- A stream that decodes, and one that does not, both with a sink that is large enough. -/
theorem witness_DecodeRunsToTheWholeImage :
    (∃ s : State, s.phase = .header ∧ s.cmd = .decode ∧ s.inBytes.length = s.inLen ∧
      (∀ m h, parseHeader s.inBytes = some (m, h) → headerOk s.config.magic m h →
        h.width.toNat * h.height.toNat ≤ s.pixelCapacity) ∧
      decodeImage s.config.magic s.inBytes = .ok (⟨1#32, 1#32, 4#8, 0#8⟩, [Pixel.zero])) ∧
    (∃ s : State, s.phase = .header ∧ s.cmd = .decode ∧ s.inBytes.length = s.inLen ∧
      (∀ m h, parseHeader s.inBytes = some (m, h) → headerOk s.config.magic m h →
        h.width.toNat * h.height.toNat ≤ s.pixelCapacity) ∧
      decodeImage s.config.magic s.inBytes = .error .badHeader) := by
  refine ⟨⟨decodeStart (smallHeader ++ [0xC0#8] ++ endMarker), rfl, rfl, rfl, ?_, rfl⟩,
    ⟨decodeStart [], rfl, rfl, rfl, nofun, rfl⟩⟩
  intro m h e _
  have hh : parseHeader (decodeStart (smallHeader ++ [0xC0#8] ++ endMarker)).inBytes =
    some (Config.standard.magic, ⟨1#32, 1#32, 4#8, 0#8⟩) := by decide
  rw [hh] at e
  cases e
  decide

theorem witness_DecodeOfEncodeIsTheImage :
    (1#32 : U32) ≠ 0#32 ∧ ((3#8 : Byte) = 3#8 ∨ (3#8 : Byte) = 4#8) ∧
    [(⟨1#8, 2#8, 3#8, 255#8⟩ : Pixel)].length = (1#32).toNat * (1#32).toNat ∧
    ((3#8 : Byte) = 3#8 → ∀ p ∈ [(⟨1#8, 2#8, 3#8, 255#8⟩ : Pixel)], p.a = 255#8) := by decide

theorem witness_StreamLengthBounds : encodeImage Config.standard.magic ⟨1#32, 1#32, 4#8, 0#8⟩ [Pixel.zero] =
    .ok (smallHeader ++ [0xC0#8] ++ endMarker) := by rfl

/-- Two cores with different histories and one input. -/
theorem witness_DecodeForgetsEarlierCommands : ∃ s s' t : State, s.phase = .idle ∧ s'.phase = .idle ∧
    s.host = [.writeCmd .decode] ∧ s'.host = [.writeCmd .decode] ∧ s'.config = s.config ∧ s'.inBytes = s.inBytes ∧
    s'.inLen = s.inLen ∧ s'.pixelCapacity = s.pixelCapacity ∧ s.prev ≠ s'.prev ∧
    Host.Core.run Sys2Proof.core 2 s = .next t :=
  ⟨{ State.reset with host := [.writeCmd .decode] },
    { State.reset with host := [.writeCmd .decode], prev := ⟨1#8, 1#8, 1#8, 1#8⟩, count := 5, n := 9 }, _,
    rfl, rfl, rfl, rfl, rfl, rfl, rfl, rfl, by decide, rfl⟩

theorem witness_EncodeForgetsEarlierCommands : ∃ s s' t : State, s.phase = .idle ∧ s'.phase = .idle ∧
    s.host = [.writeCmd .encode] ∧ s'.host = [.writeCmd .encode] ∧ s'.config = s.config ∧
    imageHeader s' = imageHeader s ∧ s'.inPixels = s.inPixels ∧ s'.inLen = s.inLen ∧ s'.outCapacity = s.outCapacity ∧
    s.prev ≠ s'.prev ∧ Host.Core.run Sys2Proof.core 2 s = .next t :=
  ⟨{ State.reset with host := [.writeCmd .encode] },
    { State.reset with host := [.writeCmd .encode], prev := ⟨1#8, 1#8, 1#8, 1#8⟩, run := 5, outBytes := [1#8] }, _,
    rfl, rfl, rfl, rfl, rfl, rfl, rfl, rfl, rfl, by decide, rfl⟩

end Sys2Proof.Machine.Tests
end

section
namespace Sys2Proof.Proofs.Scope

open Sys2Proof Sys2Proof.Machine

/-- Joining bit vectors puts the left one above the width of the right one. -/
theorem toNat_append_eq_add {m n : Nat} (x : BitVec m) (y : BitVec n) :
    (x ++ y).toNat = x.toNat * 2 ^ n + y.toNat := by
  rw [BitVec.toNat_append, ← Nat.shiftLeft_add_eq_or_of_lt y.isLt, Nat.shiftLeft_eq]

/-- `be32` puts the most significant byte first. -/
theorem be32_map_toNat (v : U32) : (be32 v).map BitVec.toNat =
    [v.toNat / 2 ^ 24, v.toNat / 2 ^ 16 % 256, v.toNat / 2 ^ 8 % 256, v.toNat % 256] := by
  have top : v.toNat / 2 ^ 24 < 256 := Nat.div_lt_of_lt_mul v.isLt
  simpa [be32, BitVec.extractLsb'_toNat, Nat.shiftRight_eq_div_pow] using top

theorem fromBe32_toNat (b0 b1 b2 b3 : Byte) : (fromBe32 b0 b1 b2 b3).toNat =
    b0.toNat * 2 ^ 24 + b1.toNat * 2 ^ 16 + b2.toNat * 2 ^ 8 + b3.toNat := by
  simp only [fromBe32, toNat_append_eq_add]
  omega

/-- Both sides have the same byte values, by the two laws above. -/
theorem be32_fromBe32 (b0 b1 b2 b3 : Byte) : be32 (fromBe32 b0 b1 b2 b3) = [b0, b1, b2, b3] := by
  apply List.map_injective_iff.mpr fun _ _ => BitVec.eq_of_toNat_eq
  have := b0.isLt
  have := b1.isLt
  have := b2.isLt
  have := b3.isLt
  simp only [be32_map_toNat, fromBe32_toNat, List.map_cons, List.map_nil, List.cons.injEq, and_true]
  omega

/-- Settles O7: the two integer readings, and the first undone by the second. -/
theorem bigEndianIntegers : Obligations.BigEndianIntegers :=
  ⟨be32_map_toNat, fromBe32_toNat, be32_fromBe32⟩

/-- Adding the delta of two channels restores the first one, in integer arithmetic. -/
theorem isShifted_delta (c p : Byte) : IsShifted c p (delta c p) := by
  have restored := addDelta_toNat p (delta c p)
  rwa [addDelta_delta] at restored

theorem inRange_iff_not_lt (lo hi x : Int) : inRange lo hi x ↔ ¬ (x < lo) ∧ ¬ (hi < x) := by
  rw [inRange, Int.not_lt, Int.not_lt]

/-- Settles O9: `wrap8` by its residue, `delta` by its range and by the channel it restores. -/
theorem deltasWrapAndAreSigned : Obligations.DeltasWrapAndAreSigned := by
  refine ⟨wrap8_toNat, fun _ => rfl, fun c p => ?_, inRange_iff_not_lt⟩
  obtain ⟨low, high⟩ := delta_range c p
  exact ⟨low, high, isShifted_delta c p, rfl⟩

end Sys2Proof.Proofs.Scope
end

section
namespace Sys2Proof.Proofs.CoreState

open Sys2Proof Sys2Proof.Machine

variable {s t : State}

/-! ### The host's moves -/

theorem not_running_of_idle (hp : s.phase = .idle) : ¬ Running s := by simp [Running, hp]

theorem not_running_of_ended (hp : s.phase = .done ∨ s.phase = .failed) : ¬ Running s := by
  obtain hp | hp := hp <;> simp [Running, hp]

/-- Between commands a step is the oldest move that waits. -/
theorem step_of_move {m : HostMove} {moves : List HostMove} (hr : ¬ Running s) (hh : s.host = m :: moves) :
    step s = hostMove m { s with host := moves } := by
  rw [step_between hr, hostStep, hh]

theorem writeCmd_of_idle (c : Cmd) (hp : s.phase = .idle) : writeCmd c s = .next (startCommand c s) := if_pos hp

theorem writeHeader_of_writable (written : State) (h : s.phase = .idle ∨ s.cmd = .encode) :
    writeHeader s written = .next written := if_pos (decide_eq_true h)

theorem writeHeader_of_readOnly (written : State) (hp : s.phase ≠ .idle) (hc : s.cmd = .decode) :
    writeHeader s written = .refused .headerReadOnly := by
  simp [writeHeader, headerWritable, hp, hc]

theorem takeResult_of_done (hp : s.phase = .done) : takeResult s = .next (returnToIdle s) := by
  rw [takeResult, hp]

theorem takeResult_of_failed (hp : s.phase = .failed) : takeResult s = .next (returnToIdle (discardLength s)) := by
  rw [takeResult, hp]

theorem step_takeResult_of_done {moves : List HostMove} (hp : s.phase = .done) (hh : s.host = .takeResult :: moves) :
    step s = .next (returnToIdle { s with host := moves }) :=
  (step_of_move (not_running_of_ended (.inl hp)) hh).trans (takeResult_of_done hp)

theorem step_takeResult_of_failed {moves : List HostMove} (hp : s.phase = .failed)
    (hh : s.host = .takeResult :: moves) : step s = .next (returnToIdle (discardLength { s with host := moves })) :=
  (step_of_move (not_running_of_ended (.inr hp)) hh).trans (takeResult_of_failed hp)

theorem imageHeader_returnToIdle (hc : s.cmd = .encode) : imageHeader (returnToIdle s) = imageHeader s := by
  rw [returnToIdle, discardHeader_of_encode _ (by simpa using hc)]
  rfl

/-- Settles O38: the one step is `startCommand`, whose fields are known. -/
theorem everyCommandStartsFresh : Obligations.EveryCommandStartsFresh := by
  intro s c moves hp hh
  have started : step s = .next (startCommand c { s with host := moves }) :=
    (step_of_move (not_running_of_idle hp) hh).trans (writeCmd_of_idle c hp)
  refine ⟨_, started, ?_⟩
  have count : c = .encode → (startCommand c { s with host := moves }).n = s.hdrWidth.toNat * s.hdrHeight.toNat := by
    rintro rfl
    rfl
  simpa [lookup_of_zero] using count

/-- Settles O39: each move is one arm of `hostMove`; the four header moves ask whether the registers are writable. -/
theorem hostMovesWriteTheirRegister : Obligations.HostMovesWriteTheirRegister := by
  intro s m moves hp hh
  have hr : ¬ Running s := hp.elim not_running_of_idle not_running_of_ended
  rw [step_of_move hr hh]
  refine ⟨?_, ?_, ?_, ?_, ?_, fun hw => ⟨?_, ?_, ?_, ?_⟩, fun hi hc => ⟨?_, ?_, ?_, ?_⟩⟩ <;> rintro v rfl
  -- the five registers and buffers the host always owns, then the header registers, writable and read-only
  iterate 5 rfl
  iterate 4 exact writeHeader_of_writable _ hw
  iterate 4 exact writeHeader_of_readOnly _ hi hc

/-- Settles O40: DONE and FAILED return by `returnToIdle`, FAILED with a discarded `OUT_LEN`. -/
theorem takingTheResultReturnsToIdle : Obligations.TakingTheResultReturnsToIdle := by
  intro s moves hh hp
  refine ⟨?_, fun e hf he => by simp [result, hf, he]⟩
  obtain hp | hp := hp
  · have operands := imageHeader_returnToIdle (s := { s with host := moves })
    exact ⟨_, step_takeResult_of_done hp hh, by simpa [imageHeader] using operands⟩
  · have operands := imageHeader_returnToIdle (s := discardLength { s with host := moves })
    exact ⟨_, step_takeResult_of_failed hp hh, by simpa [hp, imageHeader] using operands⟩

/-- All that a return to IDLE reads of a state: what the host sent, `STATUS`, `OUT_LEN` and the free values to come. -/
structure AgreeAtReturn (s s' : State) : Prop where
  config : s'.config = s.config
  cmd : s'.cmd = s.cmd
  status : s'.status = s.status
  outLen : s'.outLen = s.outLen
  inLen : s'.inLen = s.inLen
  inBytes : s'.inBytes = s.inBytes
  inPixels : s'.inPixels = s.inPixels
  outCapacity : s'.outCapacity = s.outCapacity
  pixelCapacity : s'.pixelCapacity = s.pixelCapacity
  host : s'.host = s.host
  freeCount : s'.freeCount = s.freeCount
  operands : s.cmd = .encode → imageHeader s' = imageHeader s

theorem returnToIdle_congr {s s' : State} (h : AgreeAtReturn s s') : returnToIdle s' = returnToIdle s := by
  obtain ⟨config, cmd, status, outLen, inLen, inBytes, inPixels, outCapacity, pixelCapacity, host, freeCount,
    operands⟩ := h
  cases hc : s.cmd with
  | encode =>
    have header := operands hc
    simp only [imageHeader, ImageHeader.mk.injEq] at header
    simp [returnToIdle, discardHeader, discardWork, countDraw, setPhase, *]
  | decode =>
    simp [returnToIdle, discardHeader, discardWork, countDraw, setPhase, *]

/-- Settles O41: both cores return by `returnToIdle`, which reads nothing in which they differ. -/
theorem nothingOfACommandSurvives : Obligations.NothingOfACommandSurvives := by
  intro s s' moves hh hh' hp hp' config cmd status inLen inBytes inPixels outCapacity pixelCapacity freeCount outLen
    operands
  obtain hp | hp := hp
  · refine ⟨_, step_takeResult_of_done hp hh, ?_, returnToIdle_phase _⟩
    rw [step_takeResult_of_done (hp'.trans hp) (hh'.trans hh), returnToIdle_congr]
    exact ⟨config, cmd, status, outLen hp, inLen, inBytes, inPixels, outCapacity, pixelCapacity, rfl, freeCount,
      operands⟩
  · refine ⟨_, step_takeResult_of_failed hp hh, ?_, returnToIdle_phase _⟩
    rw [step_takeResult_of_failed (hp'.trans hp) (hh'.trans hh), returnToIdle_congr]
    exact ⟨config, cmd, status, congrArg Config.freeOutLen freeCount, inLen, inBytes, inPixels, outCapacity,
      pixelCapacity, rfl, freeCount, operands⟩

/-! ### Phases -/

theorem encodePixel_phase (cur : Pixel) (s : State) : (encodePixel cur s).phase = s.phase := by
  rw [encodePixel_frame]

/-- A host write leaves `phase`, `CMD`, the cache, the outcome and both outputs alone. -/
theorem writes_kept {m : HostMove} (h : Writes m s t) :
    t.phase = s.phase ∧ t.cmd = s.cmd ∧ t.cache = s.cache ∧ t.status = s.status ∧ t.outLen = s.outLen ∧
    t.outBytes = s.outBytes ∧ t.outPixels = s.outPixels := by
  cases h <;> exact ⟨rfl, rfl, rfl, rfl, rfl, rfl, rfl⟩

/-- The phases a running command can move to (R33). -/
theorem running_phase (hr : Running s) (h : step s = .next t) :
    t.phase = s.phase ∨ (s.phase = .header ∧ t.phase = .body) ∨ (s.phase = .body ∧ t.phase = .trailer) ∨
    (s.phase = .trailer ∧ t.phase = .done) ∨ t.phase = .failed := by
  obtain ⟨-, hp, h⟩ | ⟨-, hp, h⟩ | ⟨-, hp, h⟩ | ⟨-, hp, h⟩ | ⟨-, hp, h⟩ | ⟨-, hp, h⟩ := running_next hr h
  · obtain ⟨-, rfl⟩ | ⟨-, rfl⟩ | ⟨-, -, -, -, rfl⟩ := encodeHeader_next h <;> simp [hp]
  · obtain ⟨-, p, -, rfl, -⟩ | ⟨-, rfl⟩ := encodeBody_next h
    · exact .inl (encodePixel_phase _ _)
    · simp [hp]
  · obtain ⟨rfl, -⟩ := encodeTrailer_next h
    simp [hp]
  · obtain ⟨-, rfl⟩ | ⟨m, hd, -, -, ⟨-, rfl⟩ | ⟨-, -, rfl⟩⟩ := decodeHeader_next h <;> simp [hp]
  · obtain ⟨-, i, rest, -, h⟩ | ⟨-, -, rfl⟩ | ⟨-, rfl⟩ := decodeBody_next h
    · obtain rfl | ⟨hphase, -⟩ := exec_ends h
      · simp
      · exact .inl hphase
    · simp
    · simp [hp]
  · obtain rfl | ⟨-, -, rfl⟩ := decodeTrailer_next h <;> simp [hp]

/-- The phases a step between commands can move to (R33). -/
theorem between_phase (hr : ¬ Running s) (h : step s = .next t) :
    t.phase = s.phase ∨ (s.phase = .idle ∧ t.phase = .header) ∨ (s.phase = .done ∧ t.phase = .idle) ∨
    (s.phase = .failed ∧ t.phase = .idle) := by
  obtain ⟨-, rfl⟩ | ⟨m, rest, -, ⟨c, -, hp, rfl⟩ | ⟨-, hp, rfl⟩ | ⟨-, hp, rfl⟩ | ⟨hw, -⟩⟩ := between_next hr h
  · exact .inl rfl
  · simp [hp]
  · simp [hp]
  · simp [hp]
  · obtain ⟨same, -⟩ := writes_kept hw
    exact .inl same

/-- Settles O44: the moves of a running command and those between commands. -/
theorem phasesMoveInOrder : Obligations.PhasesMoveInOrder := by
  intro s t h
  by_cases hr : Running s
  · obtain same | body | trailer | done | failed := running_phase hr h <;> simp [*]
  · obtain same | header | idle | idle := between_phase hr h <;> simp [*]

end Sys2Proof.Proofs.CoreState
end

section
namespace Sys2Proof.Proofs.CoreInvariant

open Sys2Proof Sys2Proof.Machine Sys2Proof.Proofs.CoreState

variable {s t : State}

/-! ### The invariant, phase by phase: what it asks of a state in each -/

theorem invariant_of_idle (hp : s.phase = .idle) : Invariant s := by
  constructor <;> simp [hp]

theorem invariant_startCommand (c : Cmd) (s : State) : Invariant (startCommand c s) := by
  constructor
  case cache => exact fun _ => cacheOwned_of_zero (startCommand_cache s c)
  all_goals simp

theorem invariant_of_encoding (hc : s.cmd = .encode) (hp : s.phase = .body ∨ s.phase = .trailer)
    (owned : CacheOwned s) (encoding : Encoding s) (ended : s.phase = .trailer → s.k = s.n) : Invariant s := by
  constructor
  case cache => exact fun _ => owned
  case encoding => exact fun _ _ => encoding
  case encodeTrailer => exact fun _ => ended
  all_goals obtain hp | hp := hp <;> simp [hp, hc]

theorem invariant_of_decoding (hc : s.cmd = .decode) (hp : s.phase = .body ∨ s.phase = .trailer)
    (owned : CacheOwned s) (decoding : Decoding s) (ended : s.phase = .trailer → s.count = s.n) : Invariant s := by
  constructor
  case cache => exact fun _ => owned
  case decoding => exact fun _ _ => decoding
  case decodeTrailer => exact fun _ => ended
  all_goals obtain hp | hp := hp <;> simp [hp, hc]

theorem invariant_of_done (hp : s.phase = .done) (owned : CacheOwned s) (ok : s.status = .ok)
    (bytes : s.cmd = .encode → s.outLen = s.outBytes.length)
    (pixels : s.cmd = .decode → s.outLen = s.hdrWidth.toNat * s.hdrHeight.toNat ∧ s.outPixels.length = s.outLen) :
    Invariant s := by
  constructor
  case cache => exact fun _ => owned
  case encodeDone => exact fun hc _ => bytes hc
  case decodeDone => exact fun hc _ => pixels hc
  case done => exact fun _ => ok
  all_goals simp [hp]

theorem invariant_of_failed {e : Failure} (hp : s.phase = .failed) (owned : CacheOwned s) (he : s.status = .failure e)
    (raised : raisedBy e = s.cmd) (empty : s.cmd = .encode → s.outBytes = []) : Invariant s := by
  constructor
  case cache => exact fun _ => owned
  case failed => exact fun _ => ⟨e, he, raised⟩
  case encodeFailed => exact fun hc _ => empty hc
  all_goals simp [hp]

theorem invariant_raise {e : Failure} (owned : CacheOwned s) (raised : raisedBy e = s.cmd)
    (empty : s.cmd = .encode → s.outBytes = []) : Invariant (raise e s) :=
  invariant_of_failed (raise_phase s e) owned (raise_status s e) raised empty

theorem invariant_raise_decode {e : Failure} (hc : s.cmd = .decode) (raised : raisedBy e = .decode)
    (owned : CacheOwned s) : Invariant (raise e s) :=
  invariant_raise owned (raised.trans hc.symm) (fun h => nomatch h.symm.trans hc)

/-! ### ENCODE -/

theorem headerBytes_length (m : Magic) (h : ImageHeader) : (headerBytes m h).length = 14 := rfl

/-- ENCODE enters its body with the header alone in its output (R161). -/
theorem encoding_after_header (hn : pixelCount s.hdrWidth s.hdrHeight ≠ 0)
    (matched : pixelCount s.hdrWidth s.hdrHeight = s.inLen) (channels : channelsOk s.hdrChannels)
    (fits : (headerBytes s.config.magic (imageHeader s)).length ≤ s.outCapacity) (noPixels : s.outPixels = []) :
    Encoding (setPhase .body (emit (headerBytes s.config.magic (imageHeader s)) (resetEncode (loadCount s)))) where
  target := rfl
  positive := Nat.pos_of_ne_zero hn
  matched := matched
  channels := channels
  cursor := Nat.zero_le _
  runBound := by simp
  runSeen := Nat.le_refl 0
  runFlushed := fun _ => rfl
  prevCached := cacheAt_zero _
  headed := rfl
  upper := Nat.le_refl 14
  lower := Nat.le_refl _
  fits := fits
  noPixels := noPixels

theorem encodeHeader_keeps_invariant (hc : s.cmd = .encode) (hp : s.phase = .header) (hi : Invariant s)
    (h : encodeHeader s = .next t) : Invariant t := by
  have owned : CacheOwned s := hi.cache (by simp [hp])
  obtain ⟨-, -, -, -, noBytes, noPixels, -⟩ := hi.encodeStart hc hp
  obtain ⟨-, rfl⟩ | ⟨-, rfl⟩ | ⟨hn, matched, channels, fits, rfl⟩ := encodeHeader_next h
  · exact invariant_raise owned hc.symm (fun _ => noBytes)
  · exact invariant_raise owned hc.symm (fun _ => noBytes)
  · exact invariant_of_encoding hc (.inl rfl) (cacheOwned_of_zero rfl)
      (encoding_after_header hn matched channels fits noPixels) nofun

/-- What a pixel step adds to the output (R162, R163): nothing while a run grows, else at least the byte of the run, and
at most that byte and a chunk of five. -/
theorem encodePixel_bytes (cur : Pixel) (s : State) : ∃ bytes, (encodePixel cur s).outBytes = s.outBytes ++ bytes ∧
    (((encodePixel cur s).run = s.run + 1 ∧ bytes = [] ∧ s.run + 1 ≠ 62 ∧ s.k + 1 ≠ s.n) ∨
     ((encodePixel cur s).run = 0 ∧ 1 ≤ bytes.length ∧ bytes.length ≤ 5 * (s.run + 1))) := by
  by_cases h : cur = s.prev
  · rw [encodePixel_run h]
    split
    · refine ⟨encode (.run (s.run + 1)), rfl, .inr ⟨rfl, ?_⟩⟩
      have : (encode (.run (s.run + 1))).length = 1 := rfl
      omega
    · next hflush =>
      obtain ⟨hmax, hlast⟩ := not_or.mp hflush
      exact ⟨[], (List.append_nil _).symm, .inl ⟨rfl, rfl, hmax, hlast⟩⟩
  · rw [encodePixel_new h]
    have chunk := encode_length_bounds (classify cur s.prev s.cache)
    have flush := pendingBytes_length s.run
    refine ⟨pendingBytes s.run ++ encode (classify cur s.prev s.cache), List.append_assoc _ _ _, .inr ⟨rfl, ?_⟩⟩
    rw [List.length_append]
    split at flush <;> omega

/-- The cache after a pixel step: untouched, or the pixel stored in its own slot (R104, R124, R134). -/
theorem encodePixel_cache (cur : Pixel) (s : State) :
    ((encodePixel cur s).cache = s.cache ∧ (cur = s.prev ∨ cacheAt s.cache (hash cur) = cur)) ∨
    (encodePixel cur s).cache = cacheSet s.cache (hash cur) cur := by
  by_cases h : cur = s.prev
  · rw [encodePixel_run h]
    split <;> exact .inl ⟨rfl, .inl h⟩
  · rw [encodePixel_new h]
    by_cases hindex : (classify cur s.prev s.cache).kind = .index
    · exact .inl ⟨cacheAfter_of_index hindex, .inr (classify_index hindex)⟩
    · exact .inr (cacheAfter_of_stored hindex (classify_not_run _ _ _))

theorem cacheOwned_encodePixel (cur : Pixel) (owned : CacheOwned s) : CacheOwned (encodePixel cur s) := by
  obtain ⟨kept, -⟩ | stored := encodePixel_cache cur s
  · exact cacheOwned_congr kept owned
  · exact cacheOwned_of_store stored owned

/-- After a pixel step the slot of the pixel holds it, if this held of `prev` before. -/
theorem lookup_encodePixel (cur : Pixel) (prevCached : lookup (hash s.prev) s = s.prev) :
    lookup (hash cur) (encodePixel cur s) = cur := by
  obtain ⟨kept, rfl | hit⟩ | stored := encodePixel_cache cur s
  · rw [lookup_congr kept, prevCached]
  · rw [lookup_congr kept]
    exact hit
  · rw [lookup, stored, cacheAt_cacheSet_self]

theorem take_header_append {m : Magic} {hd : ImageHeader} {old : List Byte} (headed : old.take 14 = headerBytes m hd)
    (bytes : List Byte) : (old ++ bytes).take 14 = headerBytes m hd := by
  have len := congrArg List.length headed
  rw [List.length_take, headerBytes_length] at len
  rw [List.take_append_of_le_length (by omega), headed]

/-- A pixel step keeps what holds between pixel steps; the run counter, the bounds and the cache need an argument. -/
theorem encoding_encodePixel (cur : Pixel) (he : Encoding s) (hk : s.k < s.n)
    (fits : (encodePixel cur s).outBytes.length ≤ (encodePixel cur s).outCapacity) : Encoding (encodePixel cur s) := by
  obtain ⟨target, positive, matched, channels, -, runBound, runSeen, -, prevCached, headed, upper, lower, -,
    noPixels⟩ := he
  obtain ⟨bytes, out, run⟩ := encodePixel_bytes cur s
  have k : (encodePixel cur s).k = s.k + 1 := by rw [encodePixel_frame]
  have n : (encodePixel cur s).n = s.n := by rw [encodePixel_frame]
  have length : (encodePixel cur s).outBytes.length = s.outBytes.length + bytes.length := by
    rw [out, List.length_append]
  constructor
  case target => rw [encodePixel_frame]; exact target
  case positive => rw [encodePixel_frame]; exact positive
  case matched => rw [encodePixel_frame]; exact matched
  case channels => rw [encodePixel_frame]; exact channels
  case noPixels => rw [encodePixel_frame]; exact noPixels
  case fits => exact fits
  case headed =>
    rw [out, take_header_append headed, encodePixel_frame]
    rfl
  case prevCached =>
    have prev : (encodePixel cur s).prev = cur := by rw [encodePixel_frame]
    rw [prev]
    exact lookup_encodePixel cur prevCached
  -- the run counter and the bounds: a run that grows adds no byte, anything else at least one
  all_goals
    obtain ⟨hr, rfl, hmax, hlast⟩ | ⟨hr, low, high⟩ := run
    · simp only [List.length_nil] at length
      omega
    · omega

theorem encodeBody_keeps_invariant (hc : s.cmd = .encode) (hp : s.phase = .body) (hi : Invariant s)
    (h : encodeBody s = .next t) : Invariant t := by
  have owned : CacheOwned s := hi.cache (by simp [hp])
  have encoding := hi.encoding hc (.inl hp)
  obtain ⟨hk, p, -, rfl, fits⟩ | ⟨hk, rfl⟩ := encodeBody_next h
  · have phase := (encodePixel_phase (inputPixel s.hdrChannels p) s).trans hp
    refine invariant_of_encoding ?_ (.inl phase) (cacheOwned_encodePixel _ owned)
      (encoding_encodePixel _ encoding hk fits) (by simp [phase])
    rw [encodePixel_frame]
    exact hc
  · exact invariant_of_encoding hc (.inr rfl) owned { encoding with } fun _ => Nat.le_antisymm encoding.cursor hk

theorem encodeTrailer_keeps_invariant (hc : s.cmd = .encode) (hp : s.phase = .trailer) (hi : Invariant s)
    (h : encodeTrailer s = .next t) : Invariant t := by
  have owned : CacheOwned s := hi.cache (by simp [hp])
  obtain ⟨rfl, -⟩ := encodeTrailer_next h
  rw [flushPending_eq]
  exact invariant_of_done rfl owned rfl (fun _ => rfl) (fun hd => nomatch hd.symm.trans hc)

/-! ### DECODE -/

theorem decoding_after_header {m : Magic} {hd : ImageHeader} (hl : headerLength ≤ s.inLen)
    (ok : headerOk s.config.magic m hd) (fits : pixelCount hd.width hd.height ≤ s.pixelCapacity)
    (noBytes : s.outBytes = []) :
    Decoding (setPhase .body (loadHeader hd (setPos headerLength (resetDecode s)))) := by
  obtain ⟨-, channels, width, height⟩ := ok
  exact {
    target := rfl
    width := width
    height := height
    channels := channels
    fits := fits
    output := rfl
    owed := Nat.zero_le _
    headerRead := Nat.le_refl 14
    cursor := hl
    bytesRead := Nat.le_refl 14
    prevIsLast := rfl
    noBytes := noBytes }

theorem decodeHeader_keeps_invariant (hc : s.cmd = .decode) (hp : s.phase = .header) (hi : Invariant s)
    (h : decodeHeader s = .next t) : Invariant t := by
  obtain ⟨-, -, -, -, -, noBytes, -⟩ := hi.decodeStart hc hp
  obtain ⟨-, rfl⟩ | ⟨m, hd, -, hl, ⟨-, rfl⟩ | ⟨ok, fits, rfl⟩⟩ := decodeHeader_next h
  · exact invariant_raise_decode hc rfl (cacheOwned_of_zero rfl)
  · exact invariant_raise_decode hc rfl (cacheOwned_of_zero rfl)
  · exact invariant_of_decoding hc (.inl rfl) (cacheOwned_of_zero rfl) (decoding_after_header hl ok fits noBytes) nofun

/-- A RUN that decodes counts at least one pixel (R78). -/
theorem decode_run_pos {bytes rest : List Byte} {n : Nat} (h : decode bytes = .ok (.run n, rest)) : 1 ≤ n := by
  obtain ⟨b, front, rfl, hkind, -⟩ := decode_ok h
  have hrun : kind b = .run := hkind.symm
  simp only [List.cons_append, decode, hrun, Except.ok.injEq, Prod.mk.injEq, Instr.run.injEq] at h
  omega

theorem chunkLength_bounds (k : Kind) : 1 ≤ chunkLength k ∧ chunkLength k ≤ 5 := by
  cases k <;> decide

/-- A chunk read from the unread bytes lies below `IN_LEN` as a whole (R184). -/
theorem decode_unread_within {i : Instr} {rest : List Byte} (h : decode (unread s) = .ok (i, rest)) :
    s.pos + chunkLength i.kind ≤ s.inLen := by
  obtain ⟨b, front, hbytes, hkind, hlength⟩ := decode_ok h
  have length := unread_length s
  rw [hbytes, List.length_append, List.length_cons] at length
  rw [hkind]
  omega

/-- What every chunk does in DECODE (R80, R183, R185): `m` copies of one pixel, which is `prev` afterwards, are output,
and the cursor moves past `len` bytes. -/
structure OutputsCopies (m len : Nat) (s t : State) : Prop where
  outPixels : t.outPixels = s.outPixels ++ List.replicate m t.prev
  count : t.count = s.count + m
  pos : t.pos = s.pos + len
  frame : ChunkFrame s t

theorem outputsCopies_of_pixel {px : Pixel} {len : Nat} (h : OutputsPixel px len s t) : OutputsCopies 1 len s t where
  outPixels := by rw [h.outPixels, h.prev]; rfl
  count := h.count
  pos := h.pos
  frame := h.frame

theorem outputsCopies_run (m : Nat) (s : State) : OutputsCopies m 1 s (outRun m (advance 1 s)) :=
  ⟨rfl, rfl, rfl, chunkFrame_run m 1 s⟩

/-- A chunk that was read whole, with pixels still owed, outputs at least one of them and at most all. -/
theorem exec_outputsCopies {i : Instr} {rest : List Byte} (hk : s.count < s.n)
    (hd : decode (unread s) = .ok (i, rest)) (h : exec i s = .next t) :
    ∃ m len, 1 ≤ m ∧ s.count + m ≤ s.n ∧ len ≤ 5 ∧ s.pos + len ≤ s.inLen ∧ OutputsCopies m len s t := by
  have within := decode_unread_within hd
  obtain ⟨low, high⟩ := chunkLength_bounds i.kind
  obtain ⟨short, -⟩ | ⟨px, rfl⟩ | ⟨px, rfl⟩ | ⟨n, rfl, rfl⟩ := exec_cases h
  · omega
  · exact ⟨1, _, le_rfl, hk, high, within, outputsCopies_of_pixel (outputsPixel_stored px _ s)⟩
  · exact ⟨1, 1, le_rfl, hk, by omega, by omega, outputsCopies_of_pixel (outputsPixel_plain px 1 s)⟩
  · have pos := decode_run_pos hd
    refine ⟨runLength n (s.n - s.count), 1, ?_, ?_, by omega, by omega, outputsCopies_run _ s⟩
    all_goals
      rw [runLength]
      omega

/-- Every outcome of a chunk keeps the slots owned (R104). -/
theorem cacheOwned_exec {i : Instr} (owned : CacheOwned s) (h : exec i s = .next t) : CacheOwned t := by
  obtain ⟨-, rfl⟩ | ⟨px, rfl⟩ | ⟨px, rfl⟩ | ⟨n, -, rfl⟩ := exec_cases h
  · exact owned
  · exact cacheOwned_of_store rfl owned
  · exact owned
  · exact owned

theorem getLastD_append_replicate {α : Type} (l : List α) {m : Nat} (hm : 1 ≤ m) (x d : α) :
    (l ++ List.replicate m x).getLastD d = x := by
  obtain ⟨k, rfl⟩ := Nat.exists_eq_add_of_le' hm
  rw [List.replicate_succ', ← List.append_assoc, List.getLastD_concat]

theorem decoding_of_outputsCopies {m len : Nat} (hd : Decoding s) (hm : 1 ≤ m) (owed : s.count + m ≤ s.n)
    (hlen : len ≤ 5) (within : s.pos + len ≤ s.inLen) (h : OutputsCopies m len s t) : Decoding t := by
  obtain ⟨target, width, height, channels, fits, output, -, headerRead, -, bytesRead, -, noBytes⟩ := hd
  obtain ⟨outPixels, count, pos, frame⟩ := h
  obtain ⟨-, -, outKept⟩ := frame.streams
  constructor
  case target => rw [frame.n, frame.hdrWidth, frame.hdrHeight, target]
  case width => rwa [frame.hdrWidth]
  case height => rwa [frame.hdrHeight]
  case channels => rwa [frame.hdrChannels]
  case fits => rwa [frame.n, frame.pixelCapacity]
  case output => rw [outPixels, List.length_append, List.length_replicate, output, count]
  case owed => rwa [count, frame.n]
  case headerRead => rw [pos]; omega
  case cursor => rwa [pos, frame.inLen]
  case bytesRead => rw [pos, count]; omega
  case prevIsLast => rw [outPixels, getLastD_append_replicate _ hm]
  case noBytes => exact (List.ext_getElem? outKept).trans noBytes

theorem decodeBody_keeps_invariant (hc : s.cmd = .decode) (hp : s.phase = .body) (hi : Invariant s)
    (h : decodeBody exec s = .next t) : Invariant t := by
  have owned : CacheOwned s := hi.cache (by simp [hp])
  have decoding := hi.decoding hc (.inl hp)
  obtain ⟨hk, i, rest, hd, h⟩ | ⟨-, -, rfl⟩ | ⟨hk, rfl⟩ := decodeBody_next h
  · obtain ⟨m, len, hm, owed, hlen, within, copies⟩ := exec_outputsCopies hk hd h
    have phase := copies.frame.phase.trans hp
    exact invariant_of_decoding (copies.frame.cmd.trans hc) (.inl phase) (cacheOwned_exec owned h)
      (decoding_of_outputsCopies decoding hm owed hlen within copies) (by simp [phase])
  · exact invariant_raise_decode hc rfl owned
  · exact invariant_of_decoding hc (.inr rfl) owned { decoding with } fun _ => Nat.le_antisymm decoding.owed hk

theorem decodeTrailer_keeps_invariant (hc : s.cmd = .decode) (hp : s.phase = .trailer) (hi : Invariant s)
    (h : decodeTrailer s = .next t) : Invariant t := by
  have owned : CacheOwned s := hi.cache (by simp [hp])
  have decoding := hi.decoding hc (.inr hp)
  obtain rfl | ⟨-, -, rfl⟩ := decodeTrailer_next h
  · exact invariant_raise_decode hc rfl owned
  · exact invariant_of_done rfl owned rfl (fun he => nomatch he.symm.trans hc)
      (fun _ => ⟨decoding.target, decoding.output.trans (hi.decodeTrailer hc hp)⟩)

/-! ### Between commands -/

/-- The invariant does not speak of the moves that wait. -/
theorem invariant_withHost (hi : Invariant s) (moves : List HostMove) : Invariant { s with host := moves } :=
  { hi with
    encoding := fun hc hp => { hi.encoding hc hp with }
    decoding := fun hc hp => { hi.decoding hc hp with } }

/-- A write to a register that is no `HDR_*` register leaves the dimensions alone. -/
theorem writes_dimensions {m : HostMove} (h : Writes m s t) (hm : headerMove m = false) :
    t.hdrWidth = s.hdrWidth ∧ t.hdrHeight = s.hdrHeight := by
  cases h <;> simp [headerMove] at hm ⊢

/-- A host write keeps the invariant: in IDLE nothing is asked, in DONE and FAILED the outcome, the outputs and the
cache stay, and after DECODE the dimensions too, since `HDR_*` is read-only there (R28). -/
theorem writes_keeps_invariant {m : HostMove} (hr : ¬ Running s) (hi : Invariant s) (h : Writes m s t)
    (writable : headerMove m = true → s.phase = .idle ∨ s.cmd = .encode) : Invariant t := by
  obtain ⟨phase, cmd, cache, status, outLen, outBytes, outPixels⟩ := writes_kept h
  cases hp : s.phase with
  | idle => exact invariant_of_idle (phase.trans hp)
  | header => exact absurd (.inl hp) hr
  | body => exact absurd (.inr (.inl hp)) hr
  | trailer => exact absurd (.inr (.inr hp)) hr
  | done =>
    have owned : CacheOwned s := hi.cache (by simp [hp])
    refine invariant_of_done (phase.trans hp) (cacheOwned_congr cache owned) (status.trans (hi.done hp)) ?_ ?_
    · intro hc
      rw [outLen, outBytes, hi.encodeDone (cmd.symm.trans hc) hp]
    · intro hc
      have decode := cmd.symm.trans hc
      have readOnly : headerMove m = false := by simpa [hp, decode] using writable
      obtain ⟨width, height⟩ := writes_dimensions h readOnly
      rw [outLen, outPixels, width, height]
      exact hi.decodeDone decode hp
  | failed =>
    have owned : CacheOwned s := hi.cache (by simp [hp])
    obtain ⟨e, he, raised⟩ := hi.failed hp
    refine invariant_of_failed (phase.trans hp) (cacheOwned_congr cache owned) (status.trans he)
      (raised.trans cmd.symm) fun hc => ?_
    rw [outBytes, hi.encodeFailed (cmd.symm.trans hc) hp]

theorem between_keeps_invariant (hr : ¬ Running s) (hi : Invariant s) (h : step s = .next t) : Invariant t := by
  obtain ⟨-, rfl⟩ | ⟨m, rest, -, ⟨c, -, -, rfl⟩ | ⟨-, -, rfl⟩ | ⟨-, -, rfl⟩ | ⟨hw, writable⟩⟩ := between_next hr h
  · exact hi
  · exact invariant_startCommand c _
  · exact invariant_of_idle (returnToIdle_phase _)
  · exact invariant_of_idle (returnToIdle_phase _)
  · exact writes_keeps_invariant (s := { s with host := rest }) hr (invariant_withHost hi rest) hw writable

/-- Settles O49: each phase of each command, and the moves between commands, keep the invariant. -/
theorem everyStepKeepsTheInvariant : Obligations.EveryStepKeepsTheInvariant := by
  intro s t hi h
  by_cases hr : Running s
  · obtain ⟨hc, hp, h⟩ | ⟨hc, hp, h⟩ | ⟨hc, hp, h⟩ | ⟨hc, hp, h⟩ | ⟨hc, hp, h⟩ | ⟨hc, hp, h⟩ := running_next hr h
    · exact encodeHeader_keeps_invariant hc hp hi h
    · exact encodeBody_keeps_invariant hc hp hi h
    · exact encodeTrailer_keeps_invariant hc hp hi h
    · exact decodeHeader_keeps_invariant hc hp hi h
    · exact decodeBody_keeps_invariant hc hp hi h
    · exact decodeTrailer_keeps_invariant hc hp hi h
  · exact between_keeps_invariant hr hi h

end Sys2Proof.Proofs.CoreInvariant
end

section
namespace Sys2Proof.Proofs.Memory

open Sys2Proof Sys2Proof.Machine Sys2Proof.Proofs.CoreInvariant

variable {s t : State}

/-! ### What a running command writes -/

/-- ENCODE writes `phase`, the outcome, `N`, its own registers and its output, and nothing else (R57, R60). -/
theorem encode_frame (hr : Running s) (hc : s.cmd = .encode) (h : step s = .next t) :
    t = { s with
      phase := t.phase, status := t.status, outLen := t.outLen, n := t.n, prev := t.prev, run := t.run
      cache := t.cache, k := t.k, outBytes := t.outBytes } := by
  obtain ⟨-, -, h⟩ | ⟨-, -, h⟩ | ⟨-, -, h⟩ | ⟨hd, -⟩ | ⟨hd, -⟩ | ⟨hd, -⟩ := running_next hr h
  · obtain ⟨-, rfl⟩ | ⟨-, rfl⟩ | ⟨-, -, -, -, rfl⟩ := encodeHeader_next h <;> rfl
  · obtain ⟨-, p, -, rfl, -⟩ | ⟨-, rfl⟩ := encodeBody_next h
    · rw [encodePixel_frame]
    · rfl
  · obtain ⟨rfl, -⟩ := encodeTrailer_next h
    rw [flushPending_eq]
    rfl
  all_goals exact nomatch hc.symm.trans hd

/-- DECODE writes `phase`, the outcome, `N`, the header registers, its own registers and its output, and nothing else
(R57, R60). -/
theorem decode_frame (hr : Running s) (hc : s.cmd = .decode) (h : step s = .next t) :
    t = { s with
      phase := t.phase, status := t.status, outLen := t.outLen, n := t.n, prev := t.prev, cache := t.cache
      hdrWidth := t.hdrWidth, hdrHeight := t.hdrHeight, hdrChannels := t.hdrChannels
      hdrColorspace := t.hdrColorspace, pos := t.pos, count := t.count, outPixels := t.outPixels } := by
  obtain ⟨he, -⟩ | ⟨he, -⟩ | ⟨he, -⟩ | ⟨-, -, h⟩ | ⟨-, -, h⟩ | ⟨-, -, h⟩ := running_next hr h
  iterate 3 exact nomatch hc.symm.trans he
  · obtain ⟨-, rfl⟩ | ⟨m, hd, -, -, ⟨-, rfl⟩ | ⟨-, -, rfl⟩⟩ := decodeHeader_next h <;> rfl
  · obtain ⟨-, i, rest, -, h⟩ | ⟨-, -, rfl⟩ | ⟨-, rfl⟩ := decodeBody_next h
    · obtain ⟨-, rfl⟩ | ⟨px, rfl⟩ | ⟨px, rfl⟩ | ⟨n, -, rfl⟩ := exec_cases h <;> rfl
    · rfl
    · rfl
  · obtain rfl | ⟨-, -, rfl⟩ := decodeTrailer_next h <;> rfl

/-- Settles O42: what the host sent is not among the fields either command writes. -/
theorem runningCommandsKeepTheirInputs : Obligations.RunningCommandsKeepTheirInputs := by
  intro s t hr h
  cases hc : s.cmd with
  | encode =>
    rw [encode_frame hr hc h]
    exact ⟨rfl, fun _ => rfl, fun _ => rfl, rfl, hc, rfl, rfl, rfl, fun _ => ⟨rfl, rfl, rfl, rfl⟩, nofun⟩
  | decode =>
    rw [decode_frame hr hc h]
    exact ⟨rfl, fun _ => rfl, fun _ => rfl, rfl, hc, rfl, rfl, rfl, nofun, fun _ => ⟨rfl, rfl, rfl⟩⟩

/-! ### The inputs of the two commands -/

/-- Settles O24: the header parses and is found good, so only the capacity is left to fail. -/
theorem decodeRefusesAnImageOverCapacity : Obligations.DecodeRefusesAnImageOverCapacity := by
  intro s h hp hc supplied parsed channels width height tooLarge
  have long : headerLength ≤ s.inLen := supplied ▸ parseHeader_length parsed
  have read : parseHeader (s.inBytes.take s.inLen) = some (s.config.magic, h) := by
    rw [← supplied, List.take_length, parsed]
  have good : headerOk s.config.magic s.config.magic h := ⟨rfl, channels, width, height⟩
  rw [step_decodeHeader hp hc, decodeHeader_of_parse long read, if_neg (not_not.mpr good)]
  exact if_pos tooLarge

/-- Settles O31: the two branches of `inputPixel`. -/
theorem threeChannelAlphaIsSupplied : Obligations.ThreeChannelAlphaIsSupplied :=
  fun _ _ => ⟨fun three => if_pos three, fun other => if_neg other⟩

/-! ### The length of an encoded image -/

/-- What the loop of R166 emits for pixels still to come and a pending run: at most five bytes and at least a 62nd of a
byte for each pixel of the two. -/
theorem encodePixels_length (pixels : List Pixel) (prev : Pixel) (run : Nat) (cache : Cache) (hrun : run < 62) :
    run + pixels.length ≤ 62 * (encodePixels pixels prev run cache).length ∧
      (encodePixels pixels prev run cache).length ≤ 5 * (run + pixels.length) := by
  have pending := pendingBytes_length run
  induction pixels generalizing prev run cache with
  | nil =>
    rw [encodePixels, List.length_nil]
    split at pending <;> omega
  | cons cur rest ih =>
    have flushed := ih cur 0 (hrun := by decide) (pending := rfl)
    rw [encodePixels, List.length_cons]
    split
    · split
      · next hflush =>
        have := flushed cache
        have one : (encode (.run (run + 1))).length = 1 := rfl
        rw [List.length_append, one]
        omega
      · next hgrow =>
        have below : run + 1 ≠ 62 := (not_or.mp hgrow).1
        have := ih cur (run + 1) cache (by omega) (pendingBytes_length _)
        omega
    · have := flushed (cacheAfter (classify cur prev cache) cur cache)
      have chunk := encode_length_bounds (classify cur prev cache)
      simp only [List.length_append]
      split at pending <;> omega

/-- An image that encodes is valid, and its stream is header, chunks and end marker (R160, R166). -/
theorem encodeImage_ok {m : Magic} {h : ImageHeader} {pixels : List Pixel} {bytes : List Byte}
    (he : encodeImage m h pixels = .ok bytes) :
    pixelCount h.width h.height ≠ 0 ∧ pixelCount h.width h.height = pixels.length ∧ channelsOk h.channels ∧
      bytes = headerBytes m h ++ encodePixels (pixels.map (inputPixel h.channels)) Pixel.zero 0 Cache.zero ++
        endMarker := by
  unfold encodeImage at he
  split at he
  · cases he
  · next size =>
    obtain ⟨positive, matched⟩ := not_or.mp size
    split at he
    · cases he
    · next channels =>
      cases he
      exact ⟨positive, not_not.mp matched, not_not.mp channels, rfl⟩

/-- Settles O55: 14 bytes of header and 8 of end marker around the chunks. -/
theorem streamLengthBounds : Obligations.StreamLengthBounds := by
  intro m h pixels bytes he
  obtain ⟨-, -, -, rfl⟩ := encodeImage_ok he
  have chunks := encodePixels_length (pixels.map (inputPixel h.channels)) Pixel.zero 0 Cache.zero (by decide)
  have marker : endMarker.length = 8 := rfl
  rw [List.length_map] at chunks
  rw [List.length_append, List.length_append, headerBytes_length, marker]
  omega

/-! ### A run of ENCODE whose stream outgrows the sink -/

theorem run_of_next {M : Host.Core} {a b : M.State} (steps : Nat) (h : M.step a = .next b) :
    M.run (steps + 1) a = M.run steps b := by
  rw [Host.Core.run, h]

theorem run_of_refused {M : Host.Core} {a : M.State} {r : M.Refusal} (steps : Nat) (h : M.step a = .refused r) :
    M.run (steps + 1) a = .refused r := by
  rw [Host.Core.run, h]

/-- ENCODE between its header and its end, with one pixel of input for each that `N` counts (R50, R160). -/
structure InEncodeBody (s : State) : Prop where
  phase : s.phase = .body
  cmd : s.cmd = .encode
  supplied : s.inPixels.length = s.n

/-- The stream ENCODE is on its way to (R166): the bytes so far, those of the pixels still to come, the end marker. -/
def wholeStream (s : State) : List Byte :=
  s.outBytes ++ encodePixels ((s.inPixels.drop s.k).map (inputPixel s.hdrChannels)) s.prev s.run s.cache ++ endMarker

theorem inEncodeBody_encodePixel (cur : Pixel) (hb : InEncodeBody s) : InEncodeBody (encodePixel cur s) := by
  rw [encodePixel_frame]
  exact ⟨hb.phase, hb.cmd, hb.supplied⟩

/-- A pixel step takes the next pixel through the loop of R166. -/
theorem encodePixels_encodePixel (cur : Pixel) (rest : List Pixel) (last : rest = [] ↔ s.k + 1 = s.n) :
    (encodePixel cur s).outBytes ++
        encodePixels rest (encodePixel cur s).prev (encodePixel cur s).run (encodePixel cur s).cache =
      s.outBytes ++ encodePixels (cur :: rest) s.prev s.run s.cache := by
  by_cases h : cur = s.prev
  · rw [encodePixel_run h, encodePixels, if_pos h]
    simp only [last]
    split <;> simp
  · rw [encodePixel_new h, encodePixels, if_neg h]
    simp

/-- The loop of R166 tells the last pixel by what is left, the step by its count: with the promised input they agree. -/
theorem wholeStream_encodePixel {p : Pixel} (hb : InEncodeBody s) (hp : inPixel s.k s = some p) :
    wholeStream (encodePixel (inputPixel s.hdrChannels p) s) = wholeStream s := by
  obtain ⟨hk, hget⟩ := List.getElem?_eq_some_iff.mp hp
  have supplied := hb.supplied
  have left : s.inPixels.drop s.k = p :: s.inPixels.drop (s.k + 1) := by rw [List.drop_eq_getElem_cons hk, hget]
  have loop := encodePixels_encodePixel (s := s) (inputPixel s.hdrChannels p)
    ((s.inPixels.drop (s.k + 1)).map (inputPixel s.hdrChannels)) (by simp; omega)
  rw [wholeStream, wholeStream, left, List.map_cons, ← loop, encodePixel_frame]

/-- With no pixel left, the trailer completes the stream and the sink check is made on all of it (R165, R65). -/
theorem encodeTrailer_refuses (hk : s.inPixels.length ≤ s.k) (overCapacity : s.outCapacity < (wholeStream s).length) :
    encodeTrailer s = .refused .outputOverCapacity := by
  have ended : wholeStream s = (emit endMarker (flushPending s)).outBytes := by
    rw [wholeStream, List.drop_eq_nil_of_le hk, flushPending_eq]
    rfl
  rw [ended] at overCapacity
  rw [flushPending_eq] at overCapacity
  rw [encodeTrailer, flushPending_eq]
  exact if_neg (Nat.not_le.mpr overCapacity)

/-- From the body on, one step for each pixel left and two more meet the refusal: each step keeps the stream to come. -/
theorem run_body_refused (left : Nat) (hb : InEncodeBody s) (hk : s.k + left = s.n)
    (overCapacity : s.outCapacity < (wholeStream s).length) :
    core.run (left + 2) s = .refused .outputOverCapacity := by
  induction left generalizing s with
  | zero =>
    have toTrailer : step s = .next (setPhase .trailer s) :=
      (step_encodeBody hb.phase hb.cmd).trans (encodeBody_of_end (Nat.le_of_eq hk.symm))
    have refused : step (setPhase .trailer s) = .refused .outputOverCapacity :=
      (step_encodeTrailer (s := setPhase .trailer s) rfl hb.cmd).trans
        (encodeTrailer_refuses (hb.supplied.trans hk.symm).le overCapacity)
    exact (run_of_next (M := core) 1 toTrailer).trans (run_of_refused (M := core) 0 refused)
  | succ left ih =>
    have more : s.k < s.inPixels.length := by
      have := hb.supplied
      omega
    have pixel : inPixel s.k s = some s.inPixels[s.k] := List.getElem?_eq_getElem more
    have stepped := (step_encodeBody hb.phase hb.cmd).trans (encodeBody_of_pixel (hb.supplied ▸ more) pixel)
    obtain ⟨-, fits⟩ | ⟨-, refused⟩ := withinSink_cases (encodePixel (inputPixel s.hdrChannels s.inPixels[s.k]) s)
    · rw [show left + 1 + 2 = left + 2 + 1 from rfl, run_of_next (M := core) _ (stepped.trans fits)]
      refine ih (inEncodeBody_encodePixel _ hb) ?_ ?_
      · rw [encodePixel_frame, ← hk]
        exact Nat.add_right_comm s.k 1 left
      · rw [wholeStream_encodePixel hb pixel, encodePixel_frame]
        exact overCapacity
    · exact run_of_refused (M := core) _ (stepped.trans refused)

/-- Settles O52: the header step is refused, or it leads into the body with the whole stream still to come. -/
theorem encodeOverCapacityIsRefused : Obligations.EncodeOverCapacityIsRefused := by
  intro s bytes hp hc supplied he overCapacity
  obtain ⟨positive, matched, channels, rfl⟩ := encodeImage_ok he
  have stepped := (step_encodeHeader hp hc).trans (encodeHeader_of_valid positive (matched.trans supplied) channels)
  obtain ⟨-, fits⟩ | ⟨-, refused⟩ := withinSink_cases
    (setPhase .body (emit (headerBytes s.config.magic (imageHeader s)) (resetEncode (loadCount s))))
  · rw [run_of_next (M := core) _ (stepped.trans fits)]
    exact run_body_refused s.inLen ⟨rfl, hc, matched.symm⟩
      ((Nat.zero_add _).trans (matched.trans supplied).symm) overCapacity
  · exact run_of_refused (M := core) _ (stepped.trans refused)

end Sys2Proof.Proofs.Memory
end

section
namespace Sys2Proof.Proofs.Encoding

open Sys2Proof Sys2Proof.Machine
open Sys2Proof.Proofs.Scope (toNat_append_eq_add fromBe32_toNat)
open Sys2Proof.Proofs.CoreInvariant (chunkLength_bounds headerBytes_length)

variable {b : Byte} {operands : List Byte} {i : Instr}

/-! ### The kinds as ranges of leading bytes (R80) -/

/-- The leading bytes of each kind, as R80 lists them. -/
def LeadingRange : Kind → Nat → Prop
  | .index, v => v ≤ 0x3F
  | .diff, v => 0x40 ≤ v ∧ v ≤ 0x7F
  | .luma, v => 0x80 ≤ v ∧ v ≤ 0xBF
  | .run, v => 0xC0 ≤ v ∧ v ≤ 0xFD
  | .rgb, v => v = 0xFE
  | .rgba, v => v = 0xFF

/-- The 2-bit tag of R74 as a number. -/
theorem tag_eq_iff (b : Byte) (t : BitVec 2) : b.extractLsb' 6 2 = t ↔ b.toNat / 64 = t.toNat := by
  have := b.isLt
  rw [← BitVec.toNat_inj, BitVec.extractLsb'_toNat, Nat.shiftRight_eq_div_pow]
  omega

/-- The tests of R74 on the leading byte as a number. -/
theorem kind_eq (b : Byte) : kind b =
    if b.toNat = 0xFE then .rgb else if b.toNat = 0xFF then .rgba else if b.toNat / 64 = 0 then .index
    else if b.toNat / 64 = 1 then .diff else if b.toNat / 64 = 2 then .luma else .run := by
  unfold kind
  simp only [tag_eq_iff]
  simp only [← BitVec.toNat_inj]
  rfl

theorem leadingRange_kind (b : Byte) : LeadingRange (kind b) b.toNat := by
  have := b.isLt
  rw [kind_eq]
  split_ifs <;> simp only [LeadingRange] <;> omega

theorem kind_of_leadingRange {k : Kind} (h : LeadingRange k b.toNat) : kind b = k := by
  rw [kind_eq]
  cases k <;> simp only [LeadingRange] at h
  case rgb => rw [if_pos h]
  case rgba => rw [if_neg (by omega), if_pos h]
  case index => rw [if_neg (by omega), if_neg (by omega), if_pos (by omega)]
  case diff => rw [if_neg (by omega), if_neg (by omega), if_neg (by omega), if_pos (by omega)]
  case luma => rw [if_neg (by omega), if_neg (by omega), if_neg (by omega), if_neg (by omega), if_pos (by omega)]
  case run => rw [if_neg (by omega), if_neg (by omega), if_neg (by omega), if_neg (by omega), if_neg (by omega)]

theorem leadingRange_of_kind {k : Kind} (h : kind b = k) : LeadingRange k b.toNat := h ▸ leadingRange_kind b

/-! ### What the decoder answers, said once -/

/-- `i` is the chunk of leading byte `b` and these operand bytes (R74 to R79, R81). -/
inductive IsChunk (b : Byte) : List Byte → Instr → Prop
  | rgb {r g bl : Byte} (lead : kind b = .rgb) : IsChunk b [r, g, bl] (.rgb r g bl)
  | rgba {r g bl a : Byte} (lead : kind b = .rgba) : IsChunk b [r, g, bl, a] (.rgba r g bl a)
  | index (lead : kind b = .index) : IsChunk b [] (.index (b.extractLsb' 0 6))
  | diff (lead : kind b = .diff) :
    IsChunk b [] (.diff (unbias (b.extractLsb' 4 2) 2) (unbias (b.extractLsb' 2 2) 2) (unbias (b.extractLsb' 0 2) 2))
  | luma {b1 : Byte} (lead : kind b = .luma) :
    IsChunk b [b1]
      (.luma (unbias (b.extractLsb' 0 6) 32) (unbias (b1.extractLsb' 4 4) 8) (unbias (b1.extractLsb' 0 4) 8))
  | run (lead : kind b = .run) : IsChunk b [] (.run ((b.extractLsb' 0 6).toNat + 1))

theorem decode_of_isChunk (h : IsChunk b operands i) (rest : List Byte) :
    decode (b :: (operands ++ rest)) = .ok (i, rest) := by
  cases h <;> simp [decode, *]

/-- No leading byte is illegal: with as many operand bytes as its kind takes, it is a chunk (R82). -/
theorem exists_isChunk (h : operands.length + 1 = chunkLength (kind b)) : ∃ i, IsChunk b operands i := by
  cases lead : kind b <;> rw [lead] at h
  case rgb => match operands, h with | [_, _, _], _ => exact ⟨_, .rgb lead⟩
  case rgba => match operands, h with | [_, _, _, _], _ => exact ⟨_, .rgba lead⟩
  case index => match operands, h with | [], _ => exact ⟨_, .index lead⟩
  case diff => match operands, h with | [], _ => exact ⟨_, .diff lead⟩
  case luma => match operands, h with | [_], _ => exact ⟨_, .luma lead⟩
  case run => match operands, h with | [], _ => exact ⟨_, .run lead⟩

/-- What is decoded is a chunk at the front of the bytes. -/
theorem isChunk_of_decode {bytes rest : List Byte} (h : decode bytes = .ok (i, rest)) :
    ∃ b operands, bytes = b :: (operands ++ rest) ∧ IsChunk b operands i := by
  obtain ⟨b, operands, rfl, -, length⟩ := decode_ok h
  obtain ⟨j, chunk⟩ := exists_isChunk length
  rw [List.cons_append, decode_of_isChunk chunk] at h
  cases h
  exact ⟨b, operands, rfl, chunk⟩

/-- A chunk whose bytes are all there is decoded. -/
theorem decode_of_enough {rest : List Byte} (h : chunkLength (kind b) ≤ rest.length + 1) :
    ∃ result, decode (b :: rest) = .ok result := by
  obtain ⟨positive, -⟩ := chunkLength_bounds (kind b)
  have length : (rest.take (chunkLength (kind b) - 1)).length + 1 = chunkLength (kind b) := by
    rw [List.length_take]
    omega
  obtain ⟨i, chunk⟩ := exists_isChunk length
  have decoded := decode_of_isChunk chunk (rest.drop (chunkLength (kind b) - 1))
  rw [List.take_append_drop] at decoded
  exact ⟨_, decoded⟩

/-! ### The operand ranges of a well-formed chunk -/

theorem wf_diff_iff {dr dg db : Int} :
    (Instr.diff dr dg db).wf = true ↔ inRange (-2) 1 dr ∧ inRange (-2) 1 dg ∧ inRange (-2) 1 db := by
  simp only [Instr.wf, Bool.and_eq_true, decide_eq_true_eq, and_assoc]

theorem wf_luma_iff {dg drDg dbDg : Int} :
    (Instr.luma dg drDg dbDg).wf = true ↔ inRange (-32) 31 dg ∧ inRange (-8) 7 drDg ∧ inRange (-8) 7 dbDg := by
  simp only [Instr.wf, Bool.and_eq_true, decide_eq_true_eq, and_assoc]

theorem wf_run_iff {n : Nat} : (Instr.run n).wf = true ↔ 1 ≤ n ∧ n ≤ 62 := by
  simp only [Instr.wf, Bool.and_eq_true, decide_eq_true_eq]

theorem unbias_inRange {w : Nat} (field : BitVec w) (x : Int) : inRange (-x) (2 ^ w - 1 - x) (unbias field x) := by
  have : (field.toNat : Int) < 2 ^ w := by exact_mod_cast field.isLt
  unfold unbias
  constructor <;> omega

/-! ### From bytes to a chunk and back to the bytes -/

/-- The 2-bit tag stands above the 6-bit field of the byte it leads (R75, R77, R78). -/
theorem tag_append_field {t : BitVec 2} (tag : b.toNat / 64 = t.toNat) : t ++ b.extractLsb' 0 6 = b := by
  rw [← (tag_eq_iff b t).mpr tag]
  exact BitVec.extractLsb'_append_extractLsb' (w := 2) (len := 6)

/-- The three 2-bit fields of R76 make up the 6-bit field below the tag. -/
theorem tag_append_diff_fields {t : BitVec 2} (tag : b.toNat / 64 = t.toNat) :
    t ++ b.extractLsb' 4 2 ++ b.extractLsb' 2 2 ++ b.extractLsb' 0 2 = b := by
  have := b.isLt
  apply BitVec.eq_of_toNat_eq
  simp only [toNat_append_eq_add, BitVec.extractLsb'_toNat, Nat.shiftRight_eq_div_pow, ← tag]
  omega

/-- A chunk that is read is well-formed, and the encoder puts its fields where they were read (D4). -/
theorem wf_and_encode_of_isChunk (h : IsChunk b operands i) : i.wf = true ∧ encode i = b :: operands := by
  cases h with
  | rgb lead =>
    have byte : b = 0xFE#8 := BitVec.eq_of_toNat_eq (leadingRange_of_kind lead)
    exact ⟨rfl, by rw [encode, byte]⟩
  | rgba lead =>
    have byte : b = 0xFF#8 := BitVec.eq_of_toNat_eq (leadingRange_of_kind lead)
    exact ⟨rfl, by rw [encode, byte]⟩
  | index lead =>
    have tag : b.toNat / 64 = 0 := Nat.div_eq_of_lt (Nat.lt_succ_of_le (leadingRange_of_kind lead))
    exact ⟨rfl, by rw [encode, tag_append_field tag]⟩
  | diff lead =>
    obtain ⟨low, high⟩ := leadingRange_of_kind lead
    have tag : b.toNat / 64 = 1 := by omega
    refine ⟨wf_diff_iff.mpr ⟨unbias_inRange _ _, unbias_inRange _ _, unbias_inRange _ _⟩, ?_⟩
    rw [encode, bias_unbias, bias_unbias, bias_unbias, tag_append_diff_fields tag]
  | @luma b1 lead =>
    obtain ⟨low, high⟩ := leadingRange_of_kind lead
    have tag : b.toNat / 64 = 2 := by omega
    have nibbles : b1.extractLsb' 4 4 ++ b1.extractLsb' 0 4 = b1 :=
      BitVec.extractLsb'_append_extractLsb' (w := 4) (len := 4)
    refine ⟨wf_luma_iff.mpr ⟨unbias_inRange _ _, unbias_inRange _ _, unbias_inRange _ _⟩, ?_⟩
    rw [encode, bias_unbias, bias_unbias, bias_unbias, tag_append_field tag, nibbles]
  | run lead =>
    obtain ⟨low, high⟩ := leadingRange_of_kind lead
    have tag : b.toNat / 64 = 3 := by omega
    have bound : (b.extractLsb' 0 6).toNat ≤ 61 := by
      rw [BitVec.extractLsb'_toNat]
      omega
    refine ⟨wf_run_iff.mpr ⟨Nat.le_add_left _ _, Nat.succ_le_succ bound⟩, ?_⟩
    rw [encode, Nat.add_sub_cancel, BitVec.ofNat_toNat, BitVec.setWidth_eq, tag_append_field tag]

/-! ### From a chunk to bytes and back to the chunk -/

/-- The three fields of R76, read back from the byte they were put in. -/
theorem diff_fields (t x y z : BitVec 2) : (t ++ x ++ y ++ z).extractLsb' 4 2 = x ∧
    (t ++ x ++ y ++ z).extractLsb' 2 2 = y ∧ (t ++ x ++ y ++ z).extractLsb' 0 2 = z := by
  refine ⟨?_, ?_, BitVec.extractLsb'_append_eq_right⟩
  · rw [BitVec.extractLsb'_append_eq_of_le (by omega), BitVec.extractLsb'_append_eq_of_le (by omega),
      BitVec.extractLsb'_append_eq_right]
  · rw [BitVec.extractLsb'_append_eq_of_le (by omega), BitVec.extractLsb'_append_eq_right]

/-- A byte of a 2-bit tag and a 6-bit field has the kind in whose range it lies. -/
theorem kind_append {t : BitVec 2} {field : BitVec 6} {k : Kind} (h : LeadingRange k (t.toNat * 2 ^ 6 + field.toNat)) :
    kind (t ++ field) = k :=
  kind_of_leadingRange (toNat_append_eq_add t field ▸ h)

theorem isChunk_encode_index (idx : BitVec 6) : IsChunk (0b00#2 ++ idx) [] (.index idx) := by
  have lead : kind (0b00#2 ++ idx) = .index := kind_append (by
    have := idx.isLt
    simp only [LeadingRange, BitVec.toNat_ofNat]
    omega)
  have read := IsChunk.index lead
  rwa [BitVec.extractLsb'_append_eq_right] at read

theorem isChunk_encode_diff {dr dg db : Int} (hr : inRange (-2) 1 dr) (hg : inRange (-2) 1 dg)
    (hb : inRange (-2) 1 db) :
    IsChunk (0b01#2 ++ bias 2 dr 2 ++ bias 2 dg 2 ++ bias 2 db 2) [] (.diff dr dg db) := by
  have lead : kind (0b01#2 ++ bias 2 dr 2 ++ bias 2 dg 2 ++ bias 2 db 2) = .diff := kind_of_leadingRange (by
    have := (bias 2 dr 2).isLt
    have := (bias 2 dg 2).isLt
    have := (bias 2 db 2).isLt
    simp only [LeadingRange, toNat_append_eq_add, BitVec.toNat_ofNat]
    omega)
  obtain ⟨red, green, blue⟩ := diff_fields 0b01#2 (bias 2 dr 2) (bias 2 dg 2) (bias 2 db 2)
  have read := IsChunk.diff lead
  rwa [red, green, blue, unbias_bias (by omega) (by omega), unbias_bias (by omega) (by omega),
    unbias_bias (by omega) (by omega)] at read

theorem isChunk_encode_luma {dg drDg dbDg : Int} (hg : inRange (-32) 31 dg) (hr : inRange (-8) 7 drDg)
    (hb : inRange (-8) 7 dbDg) :
    IsChunk (0b10#2 ++ bias 6 dg 32) [bias 4 drDg 8 ++ bias 4 dbDg 8] (.luma dg drDg dbDg) := by
  have lead : kind (0b10#2 ++ bias 6 dg 32) = .luma := kind_append (by
    have := (bias 6 dg 32).isLt
    simp only [LeadingRange, BitVec.toNat_ofNat]
    omega)
  have read := IsChunk.luma (b1 := bias 4 drDg 8 ++ bias 4 dbDg 8) lead
  rwa [BitVec.extractLsb'_append_eq_right, BitVec.extractLsb'_append_eq_left, BitVec.extractLsb'_append_eq_right,
    unbias_bias (by omega) (by omega), unbias_bias (by omega) (by omega), unbias_bias (by omega) (by omega)] at read

/-- At most 62, a count stays clear of the two 8-bit tags above the RUN range (R78). -/
theorem isChunk_encode_run {n : Nat} (positive : 1 ≤ n) (bounded : n ≤ 62) :
    IsChunk (0b11#2 ++ BitVec.ofNat 6 (n - 1)) [] (.run n) := by
  have lead : kind (0b11#2 ++ BitVec.ofNat 6 (n - 1)) = .run := kind_append (by
    simp only [LeadingRange, BitVec.toNat_ofNat]
    omega)
  have read := IsChunk.run lead
  rwa [BitVec.extractLsb'_append_eq_right, BitVec.toNat_ofNat, Nat.mod_eq_of_lt (by omega),
    Nat.sub_add_cancel positive] at read

/-- The encoding of a well-formed chunk is read as that chunk. -/
theorem isChunk_encode (h : i.wf = true) : ∃ b operands, encode i = b :: operands ∧ IsChunk b operands i := by
  cases i with
  | rgb r g bl => exact ⟨_, _, rfl, .rgb rfl⟩
  | rgba r g bl a => exact ⟨_, _, rfl, .rgba rfl⟩
  | index idx => exact ⟨_, _, rfl, isChunk_encode_index idx⟩
  | diff dr dg db =>
    obtain ⟨hr, hg, hb⟩ := wf_diff_iff.mp h
    exact ⟨_, _, rfl, isChunk_encode_diff hr hg hb⟩
  | luma dg drDg dbDg =>
    obtain ⟨hg, hr, hb⟩ := wf_luma_iff.mp h
    exact ⟨_, _, rfl, isChunk_encode_luma hg hr hb⟩
  | run n =>
    obtain ⟨positive, bounded⟩ := wf_run_iff.mp h
    exact ⟨_, _, rfl, isChunk_encode_run positive bounded⟩

/-! ### The statements -/

/-- Settles O2: the encoding is a chunk at the front of the bytes, so that chunk is decoded. -/
theorem decodeOfEncodeIsTheChunk : Obligations.DecodeOfEncodeIsTheChunk := by
  intro i rest wf
  obtain ⟨b, operands, bytes, chunk⟩ := isChunk_encode wf
  rw [bytes]
  exact decode_of_isChunk chunk rest

/-- Settles O3: what was decoded is a chunk at the front of the bytes, so its encoding is those bytes. -/
theorem encodeOfDecodeIsTheWord : Obligations.EncodeOfDecodeIsTheWord := by
  intro bytes rest i decoded
  obtain ⟨b, operands, rfl, chunk⟩ := isChunk_of_decode decoded
  obtain ⟨wf, encoded⟩ := wf_and_encode_of_isChunk chunk
  exact ⟨wf, by rw [encoded, List.cons_append]⟩

/-- A field as an integer quotient and residue. -/
theorem unbias_extractLsb' (b : Byte) (start w : Nat) (x : Int) :
    unbias (b.extractLsb' start w) x = ((b.toNat / 2 ^ start % 2 ^ w : Nat) : Int) - x := by
  rw [unbias, BitVec.extractLsb'_toNat, Nat.shiftRight_eq_div_pow]

/-- Settles O4: the range fixes the kind, and the fields of its chunk are quotients and residues. -/
theorem operandsAreReadFromTheirFields : Obligations.OperandsAreReadFromTheirFields := by
  intro b rest
  refine ⟨fun high => ?index, fun low high => ?diff, fun low high b1 => ?luma, fun low high => ?run,
    fun byte r g bl => decode_of_isChunk (.rgb (kind_of_leadingRange byte)) rest,
    fun byte r g bl a => decode_of_isChunk (.rgba (kind_of_leadingRange byte)) rest⟩
  case index =>
    refine ⟨_, ?_, decode_of_isChunk (.index (kind_of_leadingRange high)) rest⟩
    exact (BitVec.extractLsb'_toNat ..).trans (Nat.mod_eq_of_lt (Nat.lt_succ_of_le high))
  case diff =>
    have decoded := decode_of_isChunk (.diff (kind_of_leadingRange ⟨low, high⟩)) rest
    simp only [unbias_extractLsb'] at decoded
    simpa using decoded
  case luma =>
    have decoded := decode_of_isChunk (.luma (b1 := b1) (kind_of_leadingRange ⟨low, high⟩)) rest
    have nibble : b1.toNat / 16 % 16 = b1.toNat / 16 := Nat.mod_eq_of_lt (Nat.div_lt_of_lt_mul b1.isLt)
    simp only [unbias_extractLsb'] at decoded
    simpa [nibble] using decoded
  case run =>
    have decoded := decode_of_isChunk (.run (kind_of_leadingRange ⟨low, high⟩)) rest
    rwa [BitVec.extractLsb'_toNat] at decoded

/-- Settles O5: the kind of a chunk's leading byte says its range, and its operand bytes stand in the chunk. -/
theorem leadingByteFixesTheLength : Obligations.LeadingByteFixesTheLength := by
  intro b rest after i decoded
  obtain ⟨_, operands, bytes, chunk⟩ := isChunk_of_decode decoded
  obtain ⟨rfl, rfl⟩ := List.cons.inj bytes
  refine ⟨operands, rfl, ?_⟩
  cases chunk with
  | index lead => exact .inl ⟨leadingRange_of_kind lead, rfl, rfl, fun _ _ => rfl⟩
  | diff lead =>
    obtain ⟨low, high⟩ := leadingRange_of_kind lead
    exact .inr (.inl ⟨low, high, rfl, rfl, fun _ _ => rfl⟩)
  | luma lead =>
    obtain ⟨low, high⟩ := leadingRange_of_kind lead
    exact .inr (.inr (.inl ⟨low, high, rfl, rfl, fun _ _ => rfl⟩))
  | run lead =>
    obtain ⟨low, high⟩ := leadingRange_of_kind lead
    refine .inr (.inr (.inr (.inl ⟨low, high, rfl, rfl, fun owed enough => ?_⟩)))
    rw [chunkCount, runLength, BitVec.extractLsb'_toNat]
    exact Nat.min_eq_left enough
  | rgb lead => exact .inr (.inr (.inr (.inr (.inl ⟨leadingRange_of_kind lead, rfl, rfl, fun _ _ => rfl⟩))))
  | rgba lead => exact .inr (.inr (.inr (.inr (.inr ⟨leadingRange_of_kind lead, rfl, rfl, fun _ _ => rfl⟩))))

/-- Settles O6: with all its bytes there a chunk is decoded, and a decoded chunk had them all. -/
theorem onlyMissingBytesAreRefused : Obligations.OnlyMissingBytesAreRefused := by
  intro bytes
  constructor
  · rintro ⟨e, refused⟩ b head
    obtain ⟨rest, rfl⟩ := List.head?_eq_some_iff.mp head
    by_contra enough
    obtain ⟨result, decoded⟩ := decode_of_enough (Nat.le_of_not_lt enough)
    rw [decoded] at refused
    cases refused
  · intro missing
    cases decoded : decode bytes with
    | error e => exact ⟨e, rfl⟩
    | ok result =>
      obtain ⟨b, operands, rfl, -, length⟩ := decode_ok decoded
      have short := missing b rfl
      rw [List.length_append, List.length_cons] at short
      omega

/-- `from_be32` undoes `be32` (R9). -/
theorem fromBe32_be32 (v : U32) :
    fromBe32 (v.extractLsb' 24 8) (v.extractLsb' 16 8) (v.extractLsb' 8 8) (v.extractLsb' 0 8) = v := by
  have := v.isLt
  apply BitVec.eq_of_toNat_eq
  simp only [fromBe32_toNat, BitVec.extractLsb'_toNat, Nat.shiftRight_eq_div_pow]
  omega

/-- Settles O8: the 14 bytes are read whatever follows, and the two integers among them are restored. -/
theorem headerParsesBack : Obligations.HeaderParsesBack := by
  intro m h rest
  refine ⟨headerBytes_length m h, ?_⟩
  rw [parseHeader_append rest (headerBytes_length m h)]
  simp only [headerBytes, magicBytes, be32, List.cons_append, List.nil_append, parseHeader, fromBe32_be32]

/-- Settles O1: each of the six words is computed. -/
theorem wordsFromTheTablesDecode : Obligations.WordsFromTheTablesDecode :=
  ⟨rfl, rfl, rfl, rfl, rfl, rfl⟩

end Sys2Proof.Proofs.Encoding
end

section
namespace Sys2Proof.Proofs.ColorCache

open Sys2Proof Sys2Proof.Machine

/-! The hash (R100) and the cache (R101, R103, R105). -/

/-- 64 divides 256, so bytes may wrap before R100's modulus is taken. -/
theorem slotNumber_eq_wrapped_sum (p : Pixel) :
    slotNumber p = (p.r * 3#8 + p.g * 5#8 + p.b * 7#8 + p.a * 11#8).toNat % 64 := by
  simp only [slotNumber, BitVec.toNat_add, BitVec.toNat_mul, BitVec.toNat_ofNat]
  omega

/-- Settles O10: the hash is the slot number, which may be taken of the wrapped sum. -/
theorem hashIsTheWeightedSum : Obligations.HashIsTheWeightedSum := by
  intro p
  exact ⟨hash_toNat p, (hash_toNat p).trans (slotNumber_eq_wrapped_sum p), hash_zero⟩

theorem store_store (i : BitVec 6) (p q : Pixel) (s : State) : store i q (store i p s) = store i q s := by
  simp only [store, cacheSet, Vector.set_set]

theorem store_lookup (i : BitVec 6) (s : State) : store i (lookup i s) s = s := by
  simp only [store, lookup, cacheSet, cacheAt, Vector.set_getElem_self]

/-- Settles O13: what a lookup reads after a store, and the two laws of stores to one slot. -/
theorem storeWritesOneSlot : Obligations.StoreWritesOneSlot := by
  intro i j p q s
  exact ⟨lookup_store i j p s, store_store i p q s, store_lookup i s⟩

end Sys2Proof.Proofs.ColorCache
end

section
namespace Sys2Proof.Proofs.Chunks

open Sys2Proof Sys2Proof.Machine
open Sys2Proof.Proofs.CoreInvariant (chunkLength_bounds)
open Sys2Proof.Proofs.Encoding (wf_diff_iff wf_luma_iff decodeOfEncodeIsTheChunk)

variable {cur prev : Pixel} {cache : Cache} {c : Instr} {s : State}

/-! ### Deltas (R120, R121, R123) -/

theorem applyDelta_isShifted (prev : Pixel) (dr dg db : Int) :
    IsShifted (applyDelta prev dr dg db).r prev.r dr ∧ IsShifted (applyDelta prev dr dg db).g prev.g dg ∧
    IsShifted (applyDelta prev dr dg db).b prev.b db ∧ (applyDelta prev dr dg db).a = prev.a :=
  ⟨addDelta_toNat _ _, addDelta_toNat _ _, addDelta_toNat _ _, rfl⟩

theorem applyDelta_deltas (cur prev : Pixel) :
    applyDelta prev (delta cur.r prev.r) (delta cur.g prev.g) (delta cur.b prev.b) = cur.withAlpha prev.a := by
  simp only [applyDelta, addDelta_delta, Pixel.withAlpha]

/-- Settles O11: the sum and the restored channel, channel by channel. -/
theorem applyingDeltasRestoresThePixel : Obligations.ApplyingDeltasRestoresThePixel :=
  ⟨applyDelta_isShifted, applyDelta_deltas⟩

/-- Between the extremes of a byte's delta and of green's range (R123). -/
theorem delta_sub_inRange (c p : Byte) {dg : Int} (green : inRange (-32) 31 dg) :
    inRange (-159) 159 (delta c p - dg) := by
  have := delta_range c p
  constructor <;> omega

/-- Wrapping moves a value by multiples of 256, and none of -159..159 gets into or out of -8..7 by that (R123). -/
theorem wrapped_inRange_iff {x : Int} (h : inRange (-159) 159 x) :
    inRange (-8) 7 x ↔ inRange (-8) 7 (s8 (wrap8 x)) := by
  have residue : s8 (wrap8 x) % 256 = x % 256 := by rw [s8_mod, wrap8_toNat]
  have := s8_range (wrap8 x)
  constructor <;> intro <;> constructor <;> omega

/-- Settles O12: past the test of green's delta, both differences lie where wrapping does not matter. -/
theorem lumaTestIgnoresWrapping : Obligations.LumaTestIgnoresWrapping := by
  intro cur prev
  have red := delta_sub_inRange cur.r prev.r (dg := delta cur.g prev.g)
  have blue := delta_sub_inRange cur.b prev.b (dg := delta cur.g prev.g)
  exact ⟨fun green => ⟨red green, blue green⟩,
    and_congr_right fun green => and_congr (wrapped_inRange_iff (red green)) (wrapped_inRange_iff (blue green))⟩

/-! ### The six chunks, decode side (R125 to R135) -/

/-- A chunk with operand bytes, its pixel stored: it outputs the pixel where they are all there, and raises
TruncatedStream where they are not (R183, R184). -/
theorem withOperands_outputs (px : Pixel) (len : Nat) (s : State) :
    (s.pos + len ≤ s.inLen → ∃ t, withOperands len s (outPixel px (advance len (storePixel px s))) = .next t ∧
      OutputsPixel px len s t ∧ StoredOnly px s t) ∧
    (s.inLen < s.pos + len → ∃ t, withOperands len s (outPixel px (advance len (storePixel px s))) = .next t ∧
      OnlyRaised .truncatedStream s t) :=
  ⟨fun enough => ⟨_, if_neg (Nat.not_lt.mpr enough), outputsPixel_stored px len s, storedOnly_of_cache rfl⟩,
    fun missing => ⟨_, if_pos missing, rfl⟩⟩

/-- Settles O14: three operand bytes after the tag. -/
theorem rgbChunkDecodes : Obligations.RgbChunkDecodes :=
  fun r g b s => withOperands_outputs (rgbPixel s.prev r g b) 4 s

/-- Settles O15: four operand bytes after the tag. -/
theorem rgbaChunkDecodes : Obligations.RgbaChunkDecodes :=
  fun r g b a s => withOperands_outputs ⟨r, g, b, a⟩ 5 s

/-- Settles O16: the pixel is output without a store. -/
theorem indexChunkDecodes : Obligations.IndexChunkDecodes :=
  fun idx s => ⟨_, rfl, outputsPixel_plain (lookup idx s) 1 s, cacheKept_of_cache rfl⟩

/-- Settles O17: the shifted `prev` is output with its store. -/
theorem diffChunkDecodes : Obligations.DiffChunkDecodes := by
  intro dr dg db s
  obtain ⟨red, green, blue, alpha⟩ := applyDelta_isShifted s.prev dr dg db
  exact ⟨_, diffPixel s.prev dr dg db, rfl, red, green, blue, alpha, outputsPixel_stored _ 1 s,
    storedOnly_of_cache rfl⟩

/-- Settles O18: the shifted `prev`, one operand byte after the leading byte. -/
theorem lumaChunkDecodes : Obligations.LumaChunkDecodes := by
  intro dg drDg dbDg s
  obtain ⟨red, green, blue, alpha⟩ := applyDelta_isShifted s.prev (drDg + dg) dg (dbDg + dg)
  obtain ⟨outputs, raises⟩ := withOperands_outputs (lumaPixel s.prev dg drDg dbDg) 2 s
  refine ⟨fun enough => ?_, raises⟩
  obtain ⟨t, stepped, output, stored⟩ := outputs enough
  exact ⟨t, _, stepped, red, green, blue, alpha, output, stored⟩

/-- Settles O19: `prev` is replayed as often as the lesser of the two counts says. -/
theorem runChunkDecodes : Obligations.RunChunkDecodes := fun n s =>
  ⟨_, rfl, chunkFrame_run (runLength n (s.n - s.count)) 1 s, cacheKept_of_cache rfl, rfl, rfl,
    runLength n (s.n - s.count), Nat.min_eq_left, Nat.min_eq_right, rfl, rfl⟩

/-- The state after a chunk that is all there, in the terms of R188's loop. -/
def afterChunk (c : Instr) (s : State) : State :=
  { s with
    prev := chunkPixel c s.prev s.cache
    cache := cacheAfter c (chunkPixel c s.prev s.cache) s.cache
    pos := s.pos + chunkLength c.kind
    count := s.count + chunkCount c (s.n - s.count)
    outPixels := s.outPixels ++ List.replicate (chunkCount c (s.n - s.count)) (chunkPixel c s.prev s.cache) }

/-- The six meanings as one: a chunk that is all there does what its arm of R188's loop does. -/
theorem exec_of_enough (enough : s.pos + chunkLength c.kind ≤ s.inLen) : exec c s = .next (afterChunk c s) := by
  have present : ¬ s.inLen < s.pos + chunkLength c.kind := Nat.not_lt.mpr enough
  cases c with
  | rgb r g b => exact if_neg present
  | rgba r g b a => exact if_neg present
  | luma dg drDg dbDg => exact if_neg present
  | index idx => rfl
  | diff dr dg db => rfl
  | run n => rfl

/-! ### The classifier (R122) -/

/-- The DIFF test of R122 on two pixels. -/
abbrev Small (cur prev : Pixel) : Prop :=
  diffFits (delta cur.r prev.r) (delta cur.g prev.g) (delta cur.b prev.b)

/-- The LUMA test of R122 on two pixels. -/
abbrev Close (cur prev : Pixel) : Prop :=
  lumaFits (delta cur.g prev.g) (delta cur.r prev.r - delta cur.g prev.g) (delta cur.b prev.b - delta cur.g prev.g)

/-- `c` is the chunk of the first tier of R122 whose condition holds. -/
inductive IsTier (cur prev : Pixel) (cache : Cache) : Instr → Prop
  | index (hit : cacheAt cache (hash cur) = cur) : IsTier cur prev cache (.index (hash cur))
  | rgba (miss : cacheAt cache (hash cur) ≠ cur) (alpha : cur.a ≠ prev.a) :
    IsTier cur prev cache (.rgba cur.r cur.g cur.b cur.a)
  | diff (miss : cacheAt cache (hash cur) ≠ cur) (alpha : cur.a = prev.a) (small : Small cur prev) :
    IsTier cur prev cache (.diff (delta cur.r prev.r) (delta cur.g prev.g) (delta cur.b prev.b))
  | luma (miss : cacheAt cache (hash cur) ≠ cur) (alpha : cur.a = prev.a) (large : ¬ Small cur prev)
    (close : Close cur prev) :
    IsTier cur prev cache (.luma (delta cur.g prev.g) (delta cur.r prev.r - delta cur.g prev.g)
      (delta cur.b prev.b - delta cur.g prev.g))
  | rgb (miss : cacheAt cache (hash cur) ≠ cur) (alpha : cur.a = prev.a) (large : ¬ Small cur prev)
    (far : ¬ Close cur prev) : IsTier cur prev cache (.rgb cur.r cur.g cur.b)

theorem classify_of_isTier (tier : IsTier cur prev cache c) : classify cur prev cache = c := by
  cases tier with
  | index hit => exact if_pos hit
  | rgba miss alpha => rw [classify, if_neg miss, if_neg alpha]
  | diff miss alpha small => rw [classify, if_neg miss, if_pos alpha, if_pos small]
  | luma miss alpha large close => rw [classify, if_neg miss, if_pos alpha, if_neg large, if_pos close]
  | rgb miss alpha large far => rw [classify, if_neg miss, if_pos alpha, if_neg large, if_neg far]

theorem isTier_classify (cur prev : Pixel) (cache : Cache) : IsTier cur prev cache (classify cur prev cache) := by
  unfold classify
  dsimp only
  split
  · next hit => exact .index hit
  next miss =>
    split
    next alpha =>
      split
      · next small => exact .diff miss alpha small
      next large =>
        split
        · next close => exact .luma miss alpha large close
        · next far => exact .rgb miss alpha large far
    · next alpha => exact .rgba miss alpha

/-- The one slot with the number of R100 is the one the classifier looks at. -/
theorem slot_hit_iff :
    (∃ i : BitVec 6, i.toNat = slotNumber cur ∧ cacheAt cache i = cur) ↔ cacheAt cache (hash cur) = cur := by
  simp only [← hash_eq_iff, exists_eq_left]

/-- Settles O32: each clause is one tier, its ranges grouped channel by channel. -/
theorem classifierTiersInOrder : Obligations.ClassifierTiersInOrder := by
  intro cur prev cache
  dsimp only
  rw [slot_hit_iff]
  refine ⟨fun hit => ⟨hash cur, hash_toNat cur, classify_of_isTier (.index hit)⟩,
    fun miss alpha => classify_of_isTier (.rgba miss alpha), fun miss alpha small => ?diff,
    fun miss alpha large close => ?luma, fun miss alpha large far => ?rgb⟩
  case diff => exact classify_of_isTier (.diff miss alpha (by simpa only [and_assoc] using small))
  case luma =>
    exact classify_of_isTier
      (.luma miss alpha (by simpa only [and_assoc] using large) (by simpa only [and_assoc] using close))
  case rgb =>
    exact classify_of_isTier
      (.rgb miss alpha (by simpa only [and_assoc] using large) (by simpa only [and_assoc] using far))

theorem wf_of_isTier (tier : IsTier cur prev cache c) : c.wf = true := by
  cases tier with
  | index hit => rfl
  | rgba miss alpha => rfl
  | diff miss alpha small => exact wf_diff_iff.mpr small
  | luma miss alpha large close => exact wf_luma_iff.mpr close
  | rgb miss alpha large far => rfl

/-- The encoder gives every chunk the length R80 gives its kind. -/
theorem encode_length (c : Instr) : (encode c).length = chunkLength c.kind := by
  cases c with
  | rgb r g b => exact Laws.EncodeLength.rgb r g b
  | rgba r g b a => exact Laws.EncodeLength.rgba r g b a
  | index idx => exact Laws.EncodeLength.index idx
  | diff dr dg db => exact Laws.EncodeLength.diff dr dg db
  | luma dg drDg dbDg => exact Laws.EncodeLength.luma dg drDg dbDg
  | run n => exact Laws.EncodeLength.run n

theorem chunkLength_mem (k : Kind) : chunkLength k ∈ [1, 2, 4, 5] := by
  cases k <;> decide

/-- Settles O33: every tier's chunk is well-formed, by the tier's own condition. -/
theorem everyPixelHasAChunk : Obligations.EveryPixelHasAChunk := fun cur prev cache =>
  ⟨wf_of_isTier (isTier_classify cur prev cache), classify_not_run cur prev cache, encode_length _,
    encode_length _ ▸ chunkLength_mem _⟩

/-! ### From the chunk ENCODE chose back to its pixel (R136) -/

theorem chunkPixel_of_isTier (tier : IsTier cur prev cache c) : chunkPixel c prev cache = cur := by
  cases tier with
  | index hit => exact hit
  | rgba miss alpha => rfl
  | diff miss alpha small =>
    rw [chunkPixel, diffPixel, applyDelta_deltas, ← alpha]
    rfl
  | luma miss alpha large close =>
    rw [chunkPixel, lumaPixel, Int.sub_add_cancel, Int.sub_add_cancel, applyDelta_deltas, ← alpha]
    rfl
  | rgb miss alpha large far =>
    rw [chunkPixel, rgbPixel, ← alpha]

/-- Every chunk but a RUN outputs one pixel (R80). -/
theorem chunkCount_of_not_run (h : c.kind ≠ .run) (owed : Nat) : chunkCount c owed = 1 := by
  cases c with
  | run n => exact absurd rfl h
  | _ => rfl

/-- Settles O34: decoding undoes encoding, and the chunk's pixel is the one it was chosen for. -/
theorem chunkDecodesToItsPixel : Obligations.ChunkDecodesToItsPixel := by
  intro s cur _ five
  have tier := isTier_classify cur s.prev s.cache
  have notRun := classify_not_run cur s.prev s.cache
  have pixel := chunkPixel_of_isTier tier
  have enough : s.pos + chunkLength (classify cur s.prev s.cache).kind ≤ s.inLen :=
    (Nat.add_le_add_left (chunkLength_bounds _).2 s.pos).trans five
  refine ⟨fun rest => decodeOfEncodeIsTheChunk _ rest (wf_of_isTier tier), _, exec_of_enough enough, pixel, ?_, ?_⟩
  · rw [afterChunk, chunkCount_of_not_run notRun, pixel]
    rfl
  · rw [emitChunk_eq _ _ _ notRun, afterChunk, pixel]

/-! ### The first pixel of a 3-channel image (R50, R132) -/

/-- From the start values a pixel whose alpha is not 0 is RGBA: the empty cache holds no such pixel and `prev` has
alpha 0. -/
theorem classify_first (alpha : cur.a ≠ 0#8) :
    classify cur Pixel.zero Cache.zero = .rgba cur.r cur.g cur.b cur.a := by
  refine classify_of_isTier (.rgba ?_ alpha)
  rw [cacheAt_zero]
  rintro rfl
  exact alpha rfl

theorem encodePixel_first (alpha : cur.a ≠ 0#8) (run : s.run = 0) (prev : s.prev = Pixel.zero)
    (cache : s.cache = Cache.zero) :
    (encodePixel cur s).outBytes = s.outBytes ++ [0xFF#8, cur.r, cur.g, cur.b, cur.a] := by
  have new : cur ≠ s.prev := by
    rw [prev]
    rintro rfl
    exact alpha rfl
  rw [encodePixel_new new, prev, cache, classify_first alpha, run]
  simp [pendingBytes, encode]

/-- Settles O35: the alpha supplied is 255, so the first chunk is RGBA and its five bytes fit. -/
theorem threeChannelImagesStartWithRgba : Obligations.ThreeChannelImagesStartWithRgba := by
  intro s p phase cmd first more run prev cache three input fits
  have supplied : inputPixel s.hdrChannels p = p.withAlpha 255#8 := if_pos three
  have bytes : (encodePixel (p.withAlpha 255#8) s).outBytes = s.outBytes ++ [0xFF#8, p.r, p.g, p.b, 0xFF#8] :=
    encodePixel_first (cur := p.withAlpha 255#8) (show 255#8 ≠ 0#8 by decide) run prev cache
  have fitting : (encodePixel (p.withAlpha 255#8) s).outBytes.length ≤
      (encodePixel (p.withAlpha 255#8) s).outCapacity := by
    rw [bytes, List.length_append, encodePixel_frame]
    exact fits
  refine ⟨_, ?_, bytes⟩
  rw [step_encodeBody phase cmd, encodeBody_of_pixel more (first ▸ input), supplied]
  exact withinSink_of_fits fitting

end Sys2Proof.Proofs.Chunks
end

section
namespace Sys2Proof.Proofs.Encoder

open Sys2Proof Sys2Proof.Machine Sys2Proof.Proofs.CoreState Sys2Proof.Proofs.CoreInvariant Sys2Proof.Proofs.Memory

variable {s t : State}

/-! ### A step of each phase, where the sink holds what it emits -/

/-- ENCODE as its body starts: the working state reset, the header in the output (R161). -/
def afterHeader (s : State) : State :=
  setPhase .body (emit (headerBytes s.config.magic (imageHeader s)) (resetEncode (loadCount s)))

theorem step_header_of_fits (hp : s.phase = .header) (hc : s.cmd = .encode)
    (positive : pixelCount s.hdrWidth s.hdrHeight ≠ 0) (matched : pixelCount s.hdrWidth s.hdrHeight = s.inLen)
    (channels : channelsOk s.hdrChannels) (fits : 14 ≤ s.outCapacity) : step s = .next (afterHeader s) :=
  ((step_encodeHeader hp hc).trans (encodeHeader_of_valid positive matched channels)).trans (withinSink_of_fits fits)

theorem step_pixel_of_fits {p : Pixel} (hp : s.phase = .body) (hc : s.cmd = .encode) (hk : s.k < s.n)
    (pixel : inPixel s.k s = some p)
    (fits : (encodePixel (inputPixel s.hdrChannels p) s).outBytes.length ≤ s.outCapacity) :
    step s = .next (encodePixel (inputPixel s.hdrChannels p) s) := by
  rw [step_encodeBody hp hc, encodeBody_of_pixel hk pixel]
  refine withinSink_of_fits (fits.trans_eq ?_)
  rw [encodePixel_frame]

/-- The stream ENCODE ends with when its trailer runs (R165). -/
def endedStream (s : State) : List Byte := s.outBytes ++ pendingBytes s.run ++ endMarker

theorem encodeTrailer_of_fits (fits : (endedStream s).length ≤ s.outCapacity) :
    encodeTrailer s = .next { s with
      outBytes := endedStream s, run := 0, outLen := (endedStream s).length, status := .ok, phase := .done } := by
  rw [encodeTrailer, flushPending_eq]
  exact withinSink_of_fits fits

/-! ### A whole run of ENCODE (R166) -/

theorem wholeStream_of_end (hk : s.inPixels.length ≤ s.k) : wholeStream s = endedStream s := by
  rw [wholeStream, List.drop_eq_nil_of_le hk]
  rfl

/-- The bytes so far are the front of the stream to come, so a sink that holds the stream holds them. -/
theorem outBytes_length_le_wholeStream (s : State) : s.outBytes.length ≤ (wholeStream s).length := by
  rw [wholeStream, List.append_assoc, List.length_append]
  exact Nat.le_add_right _ _

/-- From the body on, one step for each pixel left and two more lead to DONE: each step keeps the stream to come. -/
theorem run_body_done (left : Nat) (hb : InEncodeBody s) (hk : s.k + left = s.n)
    (fits : (wholeStream s).length ≤ s.outCapacity) :
    ∃ t, core.run (left + 2) s = .next t ∧ result t = some (.bytes (wholeStream s)) ∧
      t.outLen = (wholeStream s).length := by
  induction left generalizing s with
  | zero =>
    rw [wholeStream_of_end (hb.supplied.trans hk.symm).le] at fits ⊢
    have toTrailer : step s = .next (setPhase .trailer s) :=
      (step_encodeBody hb.phase hb.cmd).trans (encodeBody_of_end (Nat.le_of_eq hk.symm))
    have toDone := (step_encodeTrailer (s := setPhase .trailer s) rfl hb.cmd).trans (encodeTrailer_of_fits fits)
    refine ⟨_, (run_of_next (M := core) 1 toTrailer).trans (run_of_next (M := core) 0 toDone), ?_, rfl⟩
    simp [result, hb.cmd, endedStream]
  | succ left ih =>
    have more : s.k < s.inPixels.length := by
      have := hb.supplied
      omega
    have pixel : inPixel s.k s = some s.inPixels[s.k] := List.getElem?_eq_getElem more
    have stream := wholeStream_encodePixel hb pixel
    rw [← stream] at fits ⊢
    have stepped := step_pixel_of_fits hb.phase hb.cmd (hb.supplied ▸ more) pixel
      ((outBytes_length_le_wholeStream _).trans fits)
    rw [show left + 1 + 2 = left + 2 + 1 from rfl, run_of_next (M := core) _ stepped]
    refine ih (inEncodeBody_encodePixel _ hb) ?_ (fits.trans_eq ?_)
    · rw [encodePixel_frame, ← hk]
      exact Nat.add_right_comm s.k 1 left
    · rw [encodePixel_frame]

/-- Settles O51: the header step leads into the body with the whole stream still to come, and the body to DONE. -/
theorem encodeRunsToTheWholeStream : Obligations.EncodeRunsToTheWholeStream := by
  intro s bytes hp hc supplied he fits
  obtain ⟨positive, matched, channels, rfl⟩ := encodeImage_ok he
  have stepped := step_header_of_fits hp hc positive (matched.trans supplied) channels
    ((outBytes_length_le_wholeStream (afterHeader s)).trans fits)
  rw [run_of_next (M := core) _ stepped]
  exact run_body_done s.inLen ⟨rfl, hc, matched.symm⟩ ((Nat.zero_add _).trans (matched.trans supplied).symm) fits

/-! ### The header phase (R160, R161) -/

/-- Settles O27: the two failing branches of the header phase. -/
theorem encodeRejectsABadImage : Obligations.EncodeRejectsABadImage := by
  intro s hp hc
  refine ⟨fun size => ⟨_, (step_encodeHeader hp hc).trans (encodeHeader_of_size size), rfl⟩,
    fun positive matched three four => ⟨_, (step_encodeHeader hp hc).trans ?_, rfl⟩⟩
  exact encodeHeader_of_channels positive matched (not_or.mpr ⟨three, four⟩)

/-- Settles O28: the step answers `afterHeader`, whose fields are known. -/
theorem encodeEmitsTheHeader : Obligations.EncodeEmitsTheHeader := by
  intro s hp hc positive matched channels fits
  exact ⟨afterHeader s, step_header_of_fits hp hc positive matched channels fits, rfl, rfl, rfl, rfl, cacheAt_zero,
    matched, rfl, rfl, rfl, rfl, rfl, rfl, rfl, rfl, rfl, rfl, rfl, rfl, rfl, rfl, rfl, rfl⟩

/-! ### The pixel step (R162 to R164) and the end of the stream (R165) -/

/-- Settles O29: `prev` is the pixel already, and the RUN byte carries the count with the pixel. -/
theorem encodeExtendsARun : Obligations.EncodeExtendsARun := by
  intro s p hp hc hk pixel same bound fits
  have stepped := step_pixel_of_fits hp hc hk pixel
  rw [encodePixel_run same, same] at stepped
  have byte : encode (.run (s.run + 1)) = [BitVec.ofNat 8 (0xC0 + s.run)] := encode_run (Nat.le_add_left 1 _) bound
  constructor
  · intro flush
    rw [if_pos flush, byte] at stepped
    exact stepped (by simpa using fits)
  · intro notMax notLast
    rw [if_neg (not_or.mpr ⟨notMax, notLast⟩)] at stepped
    exact stepped (Nat.le_of_succ_le fits)

theorem pendingBytes_of_le {run : Nat} (h : run ≤ 62) :
    pendingBytes run = if run = 0 then [] else [BitVec.ofNat 8 (0xC0 + (run - 1))] := by
  unfold pendingBytes
  split
  · next positive => rw [if_neg (Nat.ne_of_gt positive), encode_run positive h]
  · next zero => rw [if_pos (Nat.eq_zero_of_not_pos zero)]

/-- Settles O30: a flush of at most one byte and a chunk of at most five fit the six free bytes. -/
theorem encodeEmitsAChunk : Obligations.EncodeEmitsAChunk := by
  intro s p hp hc hk pixel new bound room
  have fits : (encodePixel (inputPixel s.hdrChannels p) s).outBytes.length ≤ s.outCapacity := by
    have chunk := encode_length_bounds (classify (inputPixel s.hdrChannels p) s.prev s.cache)
    have flush := pendingBytes_length s.run
    rw [encodePixel_new new]
    simp only [endPixel_outBytes, emit_outBytes, setRun_outBytes, List.length_append]
    split at flush <;> omega
  refine ⟨_, _, step_pixel_of_fits hp hc hk pixel fits, rfl, ?_⟩
  rw [encodePixel_new new, ← pendingBytes_of_le bound]
  refine ⟨rfl, rfl, rfl, rfl, fun index => ?_, fun stored => ?_, rfl⟩
  · exact cacheKept_of_cache (cacheAfter_of_index index)
  · exact storedOnly_of_cache (cacheAfter_of_stored stored (classify_not_run _ _ _))

/-- Settles O36: the pending run's byte and the end marker fit, so the trailer ends the command. -/
theorem encodeEndsTheStream : Obligations.EncodeEndsTheStream := by
  intro s hp hc bound flushed stream fits
  have ended : endedStream s = stream := by rw [endedStream, pendingBytes_of_le bound]; rfl
  rw [← ended] at fits ⊢
  exact (step_encodeTrailer hp hc).trans (encodeTrailer_of_fits fits)

/-- Settles O26: the branch of either body that finds no pixel left. -/
theorem bodyEndsAtThePixelCount : Obligations.BodyEndsAtThePixelCount := by
  rintro s hp (⟨hc, hk⟩ | ⟨hc, hk⟩)
  · exact ⟨_, (step_encodeBody hp hc).trans (encodeBody_of_end hk.ge), rfl⟩
  · exact ⟨_, (step_decodeBody hp hc).trans (decodeBody_of_end hk.ge), rfl⟩

/-! ### Two cores, one ENCODE (R167, R207) -/

/-- `s` with all that no step of an ENCODE reads taken from another core: `STATUS`, DECODE's input and sink, the count of
free values drawn. -/
def withUnread (other s : State) : State :=
  { s with
    status := other.status, inBytes := other.inBytes, pixelCapacity := other.pixelCapacity
    freeCount := other.freeCount }

/-- Where no command runs, what the host finds in `STATUS` is the outcome of this ENCODE. -/
def OutcomeShared (other s : State) : Prop := ¬ Running s → other.status = s.status

theorem result_withUnread {other : State} (shared : OutcomeShared other s) :
    result (withUnread other s) = result s := by
  by_cases hr : Running s
  · obtain hp | hp | hp := hr <;> simp [result, withUnread, hp]
  · simp [result, withUnread, imageHeader, shared hr]

theorem encodePixel_withUnread (other : State) (cur : Pixel) (s : State) :
    encodePixel cur (withUnread other s) = withUnread other (encodePixel cur s) := by
  by_cases h : cur = s.prev
  · rw [encodePixel_run h, apply_ite (withUnread other)]
    exact encodePixel_run (s := withUnread other s) h
  · rw [encodePixel_new h, encodePixel_new (s := withUnread other s) h]
    rfl

/-- A core's answer to one step of an ENCODE is the other's, and if the step ends the command so is the outcome. -/
def AnswersAlike (other s t : State) : Prop :=
  ∃ other', step (withUnread other s) = .next (withUnread other' t) ∧ OutcomeShared other' t

theorem encodeHeader_answersAlike (other : State) (hp : s.phase = .header) (hc : s.cmd = .encode)
    (h : encodeHeader s = .next t) : AnswersAlike other s t := by
  have running := step_encodeHeader (s := withUnread other s) hp hc
  by_cases size : pixelCount s.hdrWidth s.hdrHeight = 0 ∨ pixelCount s.hdrWidth s.hdrHeight ≠ s.inLen
  · cases (encodeHeader_of_size size).symm.trans h
    exact ⟨{ other with status := _ },
      running.trans (encodeHeader_of_size (s := withUnread other s) size), fun _ => rfl⟩
  obtain ⟨positive, matched⟩ := not_or.mp size
  rw [not_not] at matched
  by_cases channels : channelsOk s.hdrChannels
  · rw [encodeHeader_of_valid positive matched channels] at h
    obtain ⟨rfl, fits⟩ := withinSink_next h
    exact ⟨other, running.trans ((encodeHeader_of_valid (s := withUnread other s) positive matched channels).trans
      (withinSink_of_fits fits)), fun ended => absurd (.inr (.inl rfl)) ended⟩
  · cases (encodeHeader_of_channels positive matched channels).symm.trans h
    exact ⟨{ other with status := _ },
      running.trans (encodeHeader_of_channels (s := withUnread other s) positive matched channels), fun _ => rfl⟩

theorem encodeBody_answersAlike (other : State) (hp : s.phase = .body) (hc : s.cmd = .encode)
    (h : encodeBody s = .next t) : AnswersAlike other s t := by
  have running := step_encodeBody (s := withUnread other s) hp hc
  obtain ⟨hk, p, pixel, rfl, fits⟩ | ⟨hk, rfl⟩ := encodeBody_next h
  · refine ⟨other, running.trans ?_, fun ended => absurd (.inr (.inl ((encodePixel_phase _ _).trans hp))) ended⟩
    rw [encodeBody_of_pixel (s := withUnread other s) hk pixel, encodePixel_withUnread]
    exact withinSink_of_fits fits
  · exact ⟨other, running.trans (encodeBody_of_end (s := withUnread other s) hk),
      fun ended => absurd (.inr (.inr rfl)) ended⟩

theorem encodeTrailer_answersAlike (other : State) (hp : s.phase = .trailer) (hc : s.cmd = .encode)
    (h : encodeTrailer s = .next t) : AnswersAlike other s t := by
  have running := step_encodeTrailer (s := withUnread other s) hp hc
  obtain ⟨rfl, fits⟩ := encodeTrailer_next h
  rw [flushPending_eq] at fits ⊢
  exact ⟨{ other with status := .ok }, running.trans (encodeTrailer_of_fits (s := withUnread other s) fits),
    fun _ => rfl⟩

theorem step_of_waiting (hr : ¬ Running s) (waiting : s.host = []) : step s = .next s := by
  rw [step_between hr, hostStep, waiting]

/-- One step of an ENCODE, running or ended, of two cores that no host move waits for. -/
theorem step_answersAlike (other : State) (hc : s.cmd = .encode) (waiting : s.host = [])
    (shared : OutcomeShared other s) (h : step s = .next t) :
    AnswersAlike other s t ∧ t.cmd = .encode ∧ t.host = [] := by
  by_cases hr : Running s
  · refine ⟨?_, by rw [encode_frame hr hc h]; exact hc, by rw [encode_frame hr hc h]; exact waiting⟩
    obtain ⟨-, hp, h⟩ | ⟨-, hp, h⟩ | ⟨-, hp, h⟩ | ⟨hd, -⟩ | ⟨hd, -⟩ | ⟨hd, -⟩ := running_next hr h
    · exact encodeHeader_answersAlike other hp hc h
    · exact encodeBody_answersAlike other hp hc h
    · exact encodeTrailer_answersAlike other hp hc h
    all_goals exact nomatch hc.symm.trans hd
  · cases (step_of_waiting hr waiting).symm.trans h
    exact ⟨⟨other, step_of_waiting (s := withUnread other s) hr waiting, shared⟩, hc, waiting⟩

theorem next_of_run_succ {M : Host.Core} {a c : M.State} {steps : Nat} (h : M.run (steps + 1) a = .next c) :
    ∃ b, M.step a = .next b ∧ M.run steps b = .next c := by
  rw [Host.Core.run] at h
  split at h
  · next b stepped => exact ⟨b, stepped, h⟩
  · cases h
  · cases h

/-- An ENCODE with no host move to come answers alike after every number of steps. -/
theorem run_withUnread (steps : Nat) {other : State} (hc : s.cmd = .encode) (waiting : s.host = [])
    (shared : OutcomeShared other s) (h : core.run steps s = .next t) :
    ∃ other', core.run steps (withUnread other s) = .next (withUnread other' t) ∧ OutcomeShared other' t := by
  induction steps generalizing s other with
  | zero => cases h; exact ⟨other, rfl, shared⟩
  | succ steps ih =>
    obtain ⟨u, stepped, h⟩ := next_of_run_succ h
    obtain ⟨⟨other', stepped', shared'⟩, hc', waiting'⟩ := step_answersAlike other hc waiting shared stepped
    rw [run_of_next (M := core) steps stepped']
    exact ih hc' waiting' shared' h

/-- The state from which a core runs the ENCODE that was its one waiting move. -/
def startedEncode (s : State) : State := startCommand .encode { s with host := [] }

theorem step_writeCmd_encode (hp : s.phase = .idle) (hh : s.host = [.writeCmd .encode]) :
    step s = .next (startedEncode s) :=
  (step_of_move (not_running_of_idle hp) hh).trans (writeCmd_of_idle .encode hp)

/-- Two cores with one configuration, header, pixels and sink start an ENCODE alike. -/
theorem startedEncode_withUnread {s' : State} (config : s'.config = s.config) (header : imageHeader s' = imageHeader s)
    (pixels : s'.inPixels = s.inPixels) (inLen : s'.inLen = s.inLen) (capacity : s'.outCapacity = s.outCapacity) :
    startedEncode s' = withUnread s' (startedEncode s) := by
  obtain ⟨width, height, channels, colorspace⟩ := ImageHeader.mk.inj header
  simp [startedEncode, startCommand, withUnread, loadCount, resetEncode, resetDecode, openCommand, config, width, height,
    channels, colorspace, pixels, inLen, capacity]

/-- Settles O57: once started, the two cores differ in nothing an ENCODE reads. -/
theorem encodeForgetsEarlierCommands : Obligations.EncodeForgetsEarlierCommands := by
  intro s s' t steps hp hp' hh hh' config header pixels inLen capacity h
  cases steps with
  | zero =>
    cases h
    exact ⟨s', rfl, hp'.trans hp.symm, by simp [result, hp, hp']⟩
  | succ steps =>
    rw [run_of_next (M := core) steps (step_writeCmd_encode hp hh)] at h
    rw [run_of_next (M := core) steps (step_writeCmd_encode hp' hh'),
      startedEncode_withUnread config header pixels inLen capacity]
    obtain ⟨other, ran, shared⟩ :=
      run_withUnread steps (other := s') rfl rfl (fun ended => absurd (.inl rfl) ended) h
    exact ⟨_, ran, rfl, result_withUnread shared⟩

end Sys2Proof.Proofs.Encoder
end

section
namespace Sys2Proof.Proofs.Decoder

open Sys2Proof Sys2Proof.Machine
open Sys2Proof.Proofs.CoreState Sys2Proof.Proofs.CoreInvariant
open Sys2Proof.Proofs.Memory (run_of_next decode_frame)
open Sys2Proof.Proofs.Encoding (decode_of_enough onlyMissingBytesAreRefused decodeOfEncodeIsTheChunk
  headerParsesBack wf_run_iff)
open Sys2Proof.Proofs.Chunks (afterChunk exec_of_enough chunkCount_of_not_run isTier_classify wf_of_isTier
  chunkPixel_of_isTier)
open Sys2Proof.Proofs.Encoder (next_of_run_succ step_of_waiting)

variable {s t : State} {c : Instr} {m : Magic} {h : ImageHeader}

/-! ### The header phase (R180, R181) -/

/-- DECODE as its body starts: the working state reset, the parsed header in its registers, 14 bytes read (R181). -/
def afterHeader (h : ImageHeader) (s : State) : State :=
  setPhase .body (loadHeader h (setPos headerLength (resetDecode s)))

theorem decodeHeader_of_bad (hl : headerLength ≤ s.inLen) (parsed : parseHeader (s.inBytes.take s.inLen) = some (m, h))
    (bad : ¬ headerOk s.config.magic m h) :
    decodeHeader s = .next (raise .badHeader (setPos headerLength (resetDecode s))) :=
  (decodeHeader_of_parse hl parsed).trans (if_pos bad)

theorem decodeHeader_of_good (hl : headerLength ≤ s.inLen)
    (parsed : parseHeader (s.inBytes.take s.inLen) = some (m, h)) (good : headerOk s.config.magic m h)
    (fits : pixelCount h.width h.height ≤ s.pixelCapacity) : decodeHeader s = .next (afterHeader h s) :=
  ((decodeHeader_of_parse hl parsed).trans (if_neg (not_not.mpr good))).trans (if_neg (Nat.not_lt.mpr fits))

/-- With the promised buffer, the header is what the buffer begins with. -/
theorem parse_supplied (supplied : s.inBytes.length = s.inLen) (parsed : parseHeader s.inBytes = some (m, h)) :
    headerLength ≤ s.inLen ∧ parseHeader (s.inBytes.take s.inLen) = some (m, h) := by
  rw [← supplied, List.take_length]
  exact ⟨parseHeader_length parsed, parsed⟩

theorem step_header_of_bad (hp : s.phase = .header) (hc : s.cmd = .decode) (supplied : s.inBytes.length = s.inLen)
    (parsed : parseHeader s.inBytes = some (m, h)) (bad : ¬ headerOk s.config.magic m h) :
    step s = .next (raise .badHeader (setPos headerLength (resetDecode s))) := by
  obtain ⟨hl, read⟩ := parse_supplied supplied parsed
  exact (step_decodeHeader hp hc).trans (decodeHeader_of_bad hl read bad)

theorem step_header_of_good (hp : s.phase = .header) (hc : s.cmd = .decode) (supplied : s.inBytes.length = s.inLen)
    (parsed : parseHeader s.inBytes = some (m, h)) (good : headerOk s.config.magic m h)
    (fits : pixelCount h.width h.height ≤ s.pixelCapacity) : step s = .next (afterHeader h s) := by
  obtain ⟨hl, read⟩ := parse_supplied supplied parsed
  exact (step_decodeHeader hp hc).trans (decodeHeader_of_good hl read good fits)

/-- Settles O22: the step answers `afterHeader`, whose fields are known. -/
theorem decodeAcceptsAHeader : Obligations.DecodeAcceptsAHeader := by
  intro s h hp hc supplied parsed channels width height fits
  exact ⟨afterHeader h s, step_header_of_good hp hc supplied parsed ⟨rfl, channels, width, height⟩ fits,
    rfl, rfl, rfl, rfl, rfl, rfl, rfl, rfl, rfl, cacheAt_zero, rfl, rfl, rfl, rfl, rfl, rfl, rfl, rfl, rfl, rfl, rfl,
    rfl, rfl, rfl, rfl⟩

/-- Settles O23: both failing branches of the header phase raise BadHeader from DECODE's start values. -/
theorem decodeRejectsABadHeader : Obligations.DecodeRejectsABadHeader := by
  rintro s hp hc supplied (short | ⟨m, h, parsed, fault⟩)
  · exact ⟨_, (step_decodeHeader hp hc).trans (decodeHeader_of_short short), rfl, rfl, rfl, rfl, rfl, rfl, rfl, rfl,
      rfl⟩
  · have bad : ¬ headerOk s.config.magic m h := by
      rintro ⟨magic, channels, width, height⟩
      obtain wrong | ⟨three, four⟩ | zero | zero := fault
      · exact wrong magic
      · exact channels.elim three four
      · exact width zero
      · exact height zero
    exact ⟨_, step_header_of_bad hp hc supplied parsed bad, rfl, rfl, rfl, rfl, rfl, rfl, rfl, rfl, rfl⟩

/-! ### The body (R182, R184, R186) -/

/-- Settles O20: the branch of the body that finds a chunk. -/
theorem stepRunsTheDecodedChunk : Obligations.StepRunsTheDecodedChunk :=
  fun _ _ _ hp hc owed decoded => (step_decodeBody hp hc).trans (decodeBody_of_chunk owed decoded)

theorem step_of_cut {e : DecodeError} (hp : s.phase = .body) (hc : s.cmd = .decode) (owed : s.count < s.n)
    (supplied : s.inBytes.length = s.inLen) (cut : decode (unread s) = .error e) :
    step s = .next (raise .truncatedStream s) :=
  (step_decodeBody hp hc).trans (decodeBody_of_cut owed supplied.ge cut)

/-- The byte at `pos` leads the unread bytes. -/
theorem unread_of_inByte {b : Byte} (supplied : s.inBytes.length = s.inLen) (lead : inByte s.pos s = some b) :
    ∃ rest, unread s = b :: rest ∧ rest.length + 1 + s.pos = s.inLen := by
  obtain ⟨inside, byte⟩ := List.getElem?_eq_some_iff.mp lead
  refine ⟨s.inBytes.drop (s.pos + 1), ?_, ?_⟩
  · rw [unread_eq supplied, List.drop_eq_getElem_cons inside, byte]
  · rw [List.length_drop]
    omega

/-- Settles O21: bytes are no chunk where one of the chunk's own is missing, and otherwise a chunk of the leading byte's
kind. -/
theorem truncationIsRaisedBeforeTheChunk : Obligations.TruncationIsRaisedBeforeTheChunk := by
  intro s hp hc owed supplied
  refine ⟨fun atEnd => ?_, fun b lead => ?_⟩
  · have nothing : unread s = [] := by rw [unread_eq supplied, List.drop_eq_nil_of_le (supplied.le.trans atEnd)]
    have cut : decode (unread s) = .error .noLeadingByte := by rw [nothing, decode]
    exact ⟨_, step_of_cut hp hc owed supplied cut, rfl⟩
  · obtain ⟨rest, bytes, length⟩ := unread_of_inByte supplied lead
    refine ⟨fun missing => ?_, fun enough => ?_⟩
    · obtain ⟨e, cut⟩ := (onlyMissingBytesAreRefused (b :: rest)).mpr (by
        rintro _ ⟨⟩
        rw [List.length_cons]
        omega)
      exact ⟨_, step_of_cut hp hc owed supplied (bytes ▸ cut), rfl⟩
    · obtain ⟨⟨i, after⟩, decoded⟩ := decode_of_enough (b := b) (rest := rest) (by omega)
      obtain ⟨_, operands, front, kind, -⟩ := decode_ok decoded
      cases front
      exact ⟨i, kind, stepRunsTheDecodedChunk s i after hp hc owed (bytes ▸ decoded)⟩

/-! ### The trailer (R187) -/

/-- With the promised buffer, a marker cut short is one more case of a marker that differs (D13). -/
theorem step_trailer (hp : s.phase = .trailer) (hc : s.cmd = .decode) (supplied : s.inBytes.length = s.inLen) :
    step s = if (s.inBytes.drop s.pos).take trailerLength = endMarker then .next (succeed s.n s)
      else .next (raise .badTrailer s) := by
  rw [step_decodeTrailer hp hc]
  by_cases enough : s.pos + 8 ≤ s.inLen
  · exact decodeTrailer_of_bytes enough (memRead_of_le (enough.trans_eq supplied.symm))
  · rw [decodeTrailer_of_short (Nat.lt_of_not_le enough), if_neg]
    intro marker
    have length : ((s.inBytes.drop s.pos).take trailerLength).length = 8 := congrArg List.length marker
    rw [List.length_take, List.length_drop] at length
    omega

/-- Settles O25: the two answers of the trailer. -/
theorem decodeChecksTheEndMarker : Obligations.DecodeChecksTheEndMarker := by
  intro s hp hc supplied
  rw [step_trailer hp hc supplied]
  exact ⟨fun marker => ⟨_, if_pos marker, rfl⟩, fun other => ⟨_, if_neg other, rfl⟩⟩

/-! ### The loop of R188 -/

/-- A chunk's pixels stand before those of the chunks that follow it. -/
def prepend (front : List Pixel) (out : List Pixel × List Byte) : List Pixel × List Byte := (front ++ out.1, out.2)

theorem map_prepend_nil (x : Except Failure (List Pixel × List Byte)) : x.map (prepend []) = x := by
  cases x <;> rfl

variable {fuel owed : Nat} {prev : Pixel} {cache : Cache} {bytes rest after : List Byte} {pixels : List Pixel}

theorem decodePixels_zero (fuel : Nat) (prev : Pixel) (cache : Cache) (bytes : List Byte) :
    decodePixels fuel 0 prev cache bytes = .ok ([], bytes) := by
  rw [decodePixels]

theorem decodePixels_of_error {e : DecodeError} (positive : 0 < owed) (cut : decode bytes = .error e) :
    decodePixels fuel owed prev cache bytes = .error .truncatedStream := by
  obtain ⟨owed, rfl⟩ := Nat.exists_eq_add_of_le' positive
  cases fuel with
  | zero => rfl
  | succ fuel => rw [decodePixels, cut]

theorem decodePixels_of_chunk (positive : 0 < owed) (decoded : decode bytes = .ok (c, rest)) :
    decodePixels (fuel + 1) owed prev cache bytes =
      (decodePixels fuel (owed - chunkCount c owed) (chunkPixel c prev cache)
        (cacheAfter c (chunkPixel c prev cache) cache) rest).map
        (prepend (List.replicate (chunkCount c owed) (chunkPixel c prev cache))) := by
  obtain ⟨owed, rfl⟩ := Nat.exists_eq_add_of_le' positive
  rw [decodePixels, decoded]
  dsimp only
  split <;> next same => rw [same]; rfl

/-- A chunk that was read outputs at least one of the pixels owed and at most all. -/
theorem chunkCount_bounds (positive : 0 < owed) (decoded : decode bytes = .ok (c, rest)) :
    1 ≤ chunkCount c owed ∧ chunkCount c owed ≤ owed := by
  cases c with
  | run n => exact ⟨le_min (decode_run_pos decoded) positive, min_le_right n owed⟩
  | _ => exact ⟨le_rfl, positive⟩

/-! ### A whole run of DECODE (R188, R189) -/

/-- DECODE between its header and its end: the promised buffer, and as many pixels output as `count` says, at most
`N`. -/
structure InDecodeBody (s : State) : Prop where
  phase : s.phase = .body
  cmd : s.cmd = .decode
  supplied : s.inBytes.length = s.inLen
  output : s.outPixels.length = s.count
  owed : s.count ≤ s.n

theorem inDecodeBody_afterHeader (hc : s.cmd = .decode) (supplied : s.inBytes.length = s.inLen) :
    InDecodeBody (afterHeader h s) :=
  ⟨rfl, hc, supplied, rfl, Nat.zero_le _⟩

theorem inDecodeBody_afterChunk (hb : InDecodeBody s) (hk : s.count < s.n)
    (decoded : decode (unread s) = .ok (c, rest)) : InDecodeBody (afterChunk c s) := by
  obtain ⟨-, few⟩ := chunkCount_bounds (Nat.sub_pos_of_lt hk) decoded
  refine ⟨hb.phase, hb.cmd, hb.supplied, ?_, ?_⟩
  · rw [afterChunk, List.length_append, List.length_replicate, hb.output]
  · exact (Nat.add_le_add_left few s.count).trans_eq (Nat.add_sub_cancel' hk.le)

/-- After a chunk has been read, the unread bytes are those behind it. -/
theorem unread_afterChunk (decoded : decode (unread s) = .ok (c, rest)) : unread (afterChunk c s) = rest := by
  obtain ⟨b, operands, bytes, kind, length⟩ := decode_ok decoded
  have moved : unread (afterChunk c s) = (unread s).drop (chunkLength c.kind) := List.drop_drop.symm
  rw [moved, bytes, kind, ← length]
  exact List.drop_left

theorem step_chunk (hb : InDecodeBody s) (hk : s.count < s.n) (decoded : decode (unread s) = .ok (c, rest)) :
    step s = .next (afterChunk c s) :=
  (stepRunsTheDecodedChunk s c rest hb.phase hb.cmd hk decoded).trans
    (exec_of_enough (decode_unread_within decoded))

/-- The end of R188: the image, if the marker follows its last chunk. -/
def checkEnd (h : ImageHeader) (out : List Pixel × List Byte) : Except Failure (ImageHeader × List Pixel) :=
  if out.2.take trailerLength = endMarker then .ok (h, out.1) else .error .badTrailer

/-- The answer DECODE is on its way to in its body (R188): the pixels so far, then those of the loop over the unread
bytes, then the check of the marker. -/
def wholeImage (fuel : Nat) (s : State) : Except Failure (ImageHeader × List Pixel) :=
  ((decodePixels fuel (s.n - s.count) s.prev s.cache (unread s)).map (prepend s.outPixels)).bind
    (checkEnd (imageHeader s))

theorem wholeImage_afterChunk (hk : s.count < s.n) (decoded : decode (unread s) = .ok (c, rest)) :
    wholeImage fuel (afterChunk c s) = wholeImage (fuel + 1) s := by
  rw [wholeImage, wholeImage, decodePixels_of_chunk (Nat.sub_pos_of_lt hk) decoded, unread_afterChunk decoded]
  simp only [afterChunk, Nat.sub_add_eq]
  cases decodePixels fuel _ _ _ rest with
  | error e => rfl
  | ok out => simp [Except.map, prepend, imageHeader]

theorem wholeImage_of_cut {e : DecodeError} (hk : s.count < s.n) (cut : decode (unread s) = .error e) :
    wholeImage fuel s = .error .truncatedStream := by
  rw [wholeImage, decodePixels_of_error (Nat.sub_pos_of_lt hk) cut]
  rfl

theorem wholeImage_of_end (hk : s.n ≤ s.count) :
    wholeImage fuel s = checkEnd (imageHeader s) (s.outPixels, unread s) := by
  rw [wholeImage, Nat.sub_eq_zero_of_le hk, decodePixels_zero]
  simp [Except.map, Except.bind, prepend]

theorem decodeImage_of_bad {found : Magic} (parsed : parseHeader bytes = some (found, h))
    (bad : ¬ headerOk m found h) : decodeImage m bytes = .error .badHeader := by
  rw [decodeImage, parsed]
  exact if_pos bad

theorem decodeImage_of_good {found : Magic} (parsed : parseHeader bytes = some (found, h))
    (good : headerOk m found h) :
    decodeImage m bytes = (decodePixels (bytes.drop headerLength).length (pixelCount h.width h.height) Pixel.zero
      Cache.zero (bytes.drop headerLength)).bind (checkEnd h) := by
  rw [decodeImage, parsed]
  refine (if_neg (not_not.mpr good)).trans ?_
  dsimp only
  split <;> next same => rw [same]; rfl

/-- At its start the body is on its way to what R188 answers for the whole buffer. -/
theorem wholeImage_afterHeader {found : Magic} (supplied : s.inBytes.length = s.inLen)
    (parsed : parseHeader s.inBytes = some (found, h)) (good : headerOk s.config.magic found h) :
    wholeImage (unread (afterHeader h s)).length (afterHeader h s) = decodeImage s.config.magic s.inBytes := by
  have body : unread (afterHeader h s) = s.inBytes.drop headerLength := unread_eq (s := afterHeader h s) supplied
  rw [decodeImage_of_good parsed good, wholeImage, body]
  exact congrArg (Except.bind · (checkEnd h)) (map_prepend_nil _)

/-- The command has ended in `t` with this answer; an image has `n` pixels, and `OUT_LEN` says so. -/
structure Answered (n : Nat) (answer : Except Failure (ImageHeader × List Pixel)) (t : State) : Prop where
  image : ∀ h px, answer = .ok (h, px) → result t = some (.image h px) ∧ t.outLen = n ∧ px.length = n
  failure : ∀ e, answer = .error e → result t = some (.error e)

/-- Within `bound` steps the core ends its command with this answer. -/
def EndsWithin (bound n : Nat) (answer : Except Failure (ImageHeader × List Pixel)) (s : State) : Prop :=
  ∃ steps t, steps ≤ bound ∧ core.run steps s = .next t ∧ Answered n answer t

variable {bound bound' n : Nat} {answer : Except Failure (ImageHeader × List Pixel)}

theorem endsWithin_of_answered (answered : Answered n answer s) : EndsWithin bound n answer s :=
  ⟨0, s, Nat.zero_le _, rfl, answered⟩

theorem endsWithin_of_step (stepped : step s = .next t) (ends : EndsWithin bound n answer t)
    (more : bound + 1 ≤ bound') : EndsWithin bound' n answer s := by
  obtain ⟨steps, u, few, ran, answered⟩ := ends
  exact ⟨steps + 1, u, (Nat.succ_le_succ few).trans more, (run_of_next (M := core) steps stepped).trans ran, answered⟩

theorem answered_raise (e : Failure) (s : State) : Answered n (.error e) (raise e s) :=
  ⟨nofun, fun _ same => by cases same; rfl⟩

/-- A step that raises a failure ends the command. -/
theorem endsWithin_of_raise {e : Failure} (stepped : step s = .next (raise e t)) :
    EndsWithin (bound + 1) n (.error e) s :=
  endsWithin_of_step stepped (endsWithin_of_answered (answered_raise e t)) (Nat.succ_le_succ (Nat.zero_le bound))

theorem answered_succeed (hc : s.cmd = .decode) (output : s.outPixels.length = s.n) :
    Answered s.n (.ok (imageHeader s, s.outPixels)) (succeed s.n s) := by
  refine ⟨?_, nofun⟩
  rintro _ _ ⟨⟩
  exact ⟨by simp [result, hc, imageHeader], rfl, output⟩

/-- With every pixel output, two steps are left: to the trailer, and the check of the marker. -/
theorem endsWithin_of_end (hb : InDecodeBody s) (hk : s.n ≤ s.count) : EndsWithin 2 s.n (wholeImage fuel s) s := by
  have toTrailer : step s = .next (setPhase .trailer s) :=
    (step_decodeBody hb.phase hb.cmd).trans (decodeBody_of_end hk)
  have checked := step_trailer (s := setPhase .trailer s) rfl hb.cmd hb.supplied
  refine endsWithin_of_step toTrailer (bound := 1) ?_ le_rfl
  rw [wholeImage_of_end hk, unread_eq hb.supplied, checkEnd]
  split
  · next marker =>
    have output : s.outPixels.length = s.n := hb.output.trans (Nat.le_antisymm hb.owed hk)
    exact endsWithin_of_step (checked.trans (if_pos marker)) (endsWithin_of_answered
      (answered_succeed (s := setPhase .trailer s) hb.cmd output)) le_rfl
  · next other => exact endsWithin_of_raise (checked.trans (if_neg other))

/-- From the body on, at most one step for each pixel owed and two more end the command: each step keeps the answer to
come and outputs a pixel at least (R189). -/
theorem endsWithin_of_body (hb : InDecodeBody s) (enough : (unread s).length ≤ fuel) :
    EndsWithin (s.n - s.count + 2) s.n (wholeImage fuel s) s := by
  induction fuel using Nat.strong_induction_on generalizing s with
  | _ fuel ih =>
    obtain hk | hk := Nat.lt_or_ge s.count s.n
    · cases decoded : decode (unread s) with
      | error e =>
        rw [wholeImage_of_cut hk decoded]
        exact endsWithin_of_raise (step_of_cut hb.phase hb.cmd hk hb.supplied decoded)
      | ok out =>
        obtain ⟨c, rest⟩ := out
        have shorter := decode_shorter decoded
        obtain ⟨left, rfl⟩ := Nat.exists_eq_succ_of_ne_zero (Nat.ne_zero_of_lt (shorter.trans_le enough))
        rw [← wholeImage_afterChunk hk decoded]
        have ends := ih left (Nat.lt_succ_self left) (inDecodeBody_afterChunk hb hk decoded) (by
          rw [unread_afterChunk decoded]
          omega)
        obtain ⟨many, -⟩ := chunkCount_bounds (Nat.sub_pos_of_lt hk) decoded
        refine endsWithin_of_step (step_chunk hb hk decoded) ends ?_
        simp only [afterChunk]
        omega
    · rw [Nat.sub_eq_zero_of_le hk]
      exact endsWithin_of_end hb hk

theorem decodeImage_of_short (short : bytes.length < 14) : decodeImage m bytes = .error .badHeader := by
  have missing : parseHeader bytes = none := by
    rw [← Option.not_isSome_iff_eq_none, parseHeader_isSome_iff]
    exact Nat.not_le.mpr short
  rw [decodeImage, missing]

/-- From its start, DECODE ends with the answer of R188, three steps beside one for each pixel at most. -/
theorem endsWithin_of_header (hp : s.phase = .header) (hc : s.cmd = .decode) (supplied : s.inBytes.length = s.inLen)
    (room : ∀ m h, parseHeader s.inBytes = some (m, h) → headerOk s.config.magic m h →
      h.width.toNat * h.height.toNat ≤ s.pixelCapacity) :
    ∃ n, EndsWithin (n + 3) n (decodeImage s.config.magic s.inBytes) s := by
  obtain short | long := Nat.lt_or_ge s.inBytes.length 14
  · rw [decodeImage_of_short short]
    exact ⟨0, endsWithin_of_raise ((step_decodeHeader hp hc).trans (decodeHeader_of_short (supplied ▸ short)))⟩
  · obtain ⟨m, h, parsed⟩ := parseHeader_of_length long
    by_cases good : headerOk s.config.magic m h
    · rw [← wholeImage_afterHeader supplied parsed good]
      exact ⟨pixelCount h.width h.height,
        endsWithin_of_step (step_header_of_good hp hc supplied parsed good (room m h parsed good))
          (endsWithin_of_body (inDecodeBody_afterHeader hc supplied) le_rfl) le_rfl⟩
    · rw [decodeImage_of_bad parsed good]
      exact ⟨0, endsWithin_of_raise (step_header_of_bad hp hc supplied parsed good)⟩

/-- Settles O53: the steps from the start to the answer, with `N` the number of pixels of an image. -/
theorem decodeRunsToTheWholeImage : Obligations.DecodeRunsToTheWholeImage := by
  intro s hp hc supplied room
  obtain ⟨n, steps, t, few, ran, image, failure⟩ := endsWithin_of_header hp hc supplied room
  refine ⟨steps, t, ran, fun h px answer => ?_, failure⟩
  obtain ⟨ended, length, count⟩ := image h px answer
  rw [count]
  exact ⟨ended, length, few⟩

/-! ### Decoding an encoded image (R190) -/

/-- With fuel enough for the bytes, the loop of R188 gives these pixels for the `owed` ones and stops before `after`. -/
def Decodes (owed : Nat) (prev : Pixel) (cache : Cache) (bytes : List Byte) (pixels : List Pixel)
    (after : List Byte) : Prop :=
  ∀ fuel, bytes.length ≤ fuel → decodePixels fuel owed prev cache bytes = .ok (pixels, after)

theorem decodes_nothing (prev : Pixel) (cache : Cache) (bytes : List Byte) : Decodes 0 prev cache bytes [] bytes :=
  fun fuel _ => decodePixels_zero fuel prev cache bytes

/-- The bytes of a well-formed chunk give its pixels, and the loop goes on behind them. -/
theorem decodes_chunk {count : Nat} {px : Pixel} (wf : c.wf = true) (positive : 0 < owed)
    (counted : chunkCount c owed = count) (pixel : chunkPixel c prev cache = px)
    (rests : Decodes (owed - count) px (cacheAfter c px cache) bytes pixels after) :
    Decodes owed prev cache (encode c ++ bytes) (List.replicate count px ++ pixels) after := by
  intro fuel enough
  obtain ⟨one, -⟩ := encode_length_bounds c
  rw [List.length_append] at enough
  obtain ⟨left, rfl⟩ := Nat.exists_eq_add_of_le' (one.trans (Nat.le_of_add_right_le enough))
  rw [decodePixels_of_chunk positive (decodeOfEncodeIsTheChunk c bytes wf), counted, pixel, rests left (by omega)]
  rfl

/-- A RUN chunk repeats `prev` (R135). -/
theorem decodes_run {run : Nat} (positive : 1 ≤ run) (bounded : run ≤ 62)
    (rests : Decodes owed prev cache bytes pixels after) :
    Decodes (run + owed) prev cache (encode (.run run) ++ bytes) (List.replicate run prev ++ pixels) after := by
  refine decodes_chunk (wf_run_iff.mpr ⟨positive, bounded⟩) (Nat.add_pos_left positive owed)
    (Nat.min_eq_left (Nat.le_add_right run owed)) rfl ?_
  rw [Nat.add_sub_cancel_left]
  exact rests

theorem decodes_pending {run : Nat} (bounded : run ≤ 62) (rests : Decodes owed prev cache bytes pixels after) :
    Decodes (run + owed) prev cache (pendingBytes run ++ bytes) (List.replicate run prev ++ pixels) after := by
  unfold pendingBytes
  split
  · next positive => exact decodes_run positive bounded rests
  · next zero =>
    obtain rfl := Nat.eq_zero_of_not_pos zero
    rw [Nat.zero_add]
    exact rests

/-- The chunk ENCODE chooses for a pixel gives the pixel back, and the cache ENCODE has after it (R136). -/
theorem decodes_classified (cur : Pixel)
    (rests : Decodes owed cur (cacheAfter (classify cur prev cache) cur cache) bytes pixels after) :
    Decodes (owed + 1) prev cache (encode (classify cur prev cache) ++ bytes) (cur :: pixels) after := by
  have tier := isTier_classify cur prev cache
  exact decodes_chunk (wf_of_isTier tier) (Nat.succ_pos owed)
    (chunkCount_of_not_run (classify_not_run cur prev cache) _) (chunkPixel_of_isTier tier) rests

/-- Decoding what the loop of R166 emits gives the pixels of the pending run and those after it. -/
theorem decodes_encodePixels (pixels : List Pixel) (prev : Pixel) {run : Nat} (cache : Cache) (bounded : run < 62)
    (after : List Byte) :
    Decodes (run + pixels.length) prev cache (encodePixels pixels prev run cache ++ after)
      (List.replicate run prev ++ pixels) after := by
  induction pixels generalizing prev run cache with
  | nil => exact decodes_pending bounded.le (decodes_nothing prev cache after)
  | cons cur rest ih =>
    have flushed := fun cache => ih cur (run := 0) cache (by decide)
    simp only [Nat.zero_add, List.replicate_zero, List.nil_append] at flushed
    have grown : List.replicate run prev ++ prev :: rest = List.replicate (run + 1) prev ++ rest := by
      rw [List.replicate_succ', List.append_assoc, List.singleton_append]
    have count : run + (cur :: rest).length = run + 1 + rest.length := by
      rw [List.length_cons]
      omega
    rw [encodePixels]
    split
    · next same =>
      obtain rfl := same
      rw [grown, count]
      split
      · rw [List.append_assoc]
        exact decodes_run (Nat.le_add_left 1 run) bounded (flushed cache)
      · next grows => exact ih cur cache (lt_of_le_of_ne bounded (not_or.mp grows).1)
    · rw [List.append_assoc, List.append_assoc]
      exact decodes_pending bounded.le (decodes_classified cur (flushed _))

theorem encodeImage_of_valid (size : pixelCount h.width h.height ≠ 0)
    (matched : pixelCount h.width h.height = pixels.length) (channels : channelsOk h.channels) :
    encodeImage m h pixels = .ok (headerBytes m h ++
      encodePixels (pixels.map (inputPixel h.channels)) Pixel.zero 0 Cache.zero ++ endMarker) :=
  (if_neg (not_or.mpr ⟨size, not_not.mpr matched⟩)).trans (if_neg (not_not.mpr channels))

/-- Where the input's alpha is 255 already, ENCODE takes a 3-channel image as it is (R50). -/
theorem map_inputPixel {channels : Byte} (opaquePixels : channels = 3#8 → ∀ p ∈ pixels, p.a = 255#8) :
    pixels.map (inputPixel channels) = pixels := by
  refine (List.map_congr_left fun p member => ?_).trans (List.map_id pixels)
  obtain three | other := eq_or_ne channels 3#8
  · rw [inputPixel, if_pos three, ← opaquePixels three p member]
    rfl
  · exact if_neg other

/-- Settles O54: the header parses back, the loop gives the pixels back, and the end marker is what is left. -/
theorem decodeOfEncodeIsTheImage : Obligations.DecodeOfEncodeIsTheImage := by
  intro m h pixels width height channels matched opaquePixels
  have positive : ∀ {v : U32}, v ≠ 0#32 → v.toNat ≠ 0 := fun hv zero => hv (BitVec.eq_of_toNat_eq zero)
  have size : pixelCount h.width h.height ≠ 0 := Nat.mul_ne_zero (positive width) (positive height)
  refine ⟨_, encodeImage_of_valid size matched.symm channels, ?_⟩
  rw [map_inputPixel opaquePixels, List.append_assoc]
  obtain ⟨length, parsed⟩ := headerParsesBack m h (encodePixels pixels Pixel.zero 0 Cache.zero ++ endMarker)
  have decoded := decodes_encodePixels pixels Pixel.zero (run := 0) Cache.zero (by decide) endMarker _ le_rfl
  rw [Nat.zero_add, matched, List.replicate_zero, List.nil_append] at decoded
  rw [decodeImage_of_good parsed ⟨rfl, channels, width, height⟩, List.drop_left' length, pixelCount, decoded]
  rfl

/-! ### Two cores, one DECODE (R189, R207) -/

/-- `s` with all that no step of a DECODE reads taken from another core: `STATUS`, ENCODE's input and sink, the count of
free values drawn. -/
def withUnread (other s : State) : State :=
  { s with
    status := other.status, inPixels := other.inPixels, outCapacity := other.outCapacity
    freeCount := other.freeCount }

/-- Where no command runs, what the host finds in `STATUS` is the outcome of this DECODE. -/
def OutcomeShared (other s : State) : Prop := ¬ Running s → other.status = s.status

theorem result_withUnread {other : State} (shared : OutcomeShared other s) :
    result (withUnread other s) = result s := by
  by_cases hr : Running s
  · obtain hp | hp | hp := hr <;> simp [result, withUnread, hp]
  · simp [result, withUnread, imageHeader, shared hr]

/-- A core's answer to one step of a DECODE is the other's, and if the step ends the command so is the outcome. -/
def AnswersAlike (other s t : State) : Prop :=
  ∃ other', step (withUnread other s) = .next (withUnread other' t) ∧ OutcomeShared other' t

/-- A step that fails, fails in both cores alike. -/
theorem answersAlike_raise {other : State} {e : Failure}
    (stepped : step (withUnread other s) = .next (raise e (withUnread other s))) : AnswersAlike other s (raise e s) :=
  ⟨{ other with status := .failure e }, stepped, fun _ => rfl⟩

/-- A cut chunk is found only in a buffer that reaches `IN_LEN`; elsewhere the step faults. -/
theorem supplied_of_cut {e : DecodeError} (hk : s.count < s.n) (cut : decode (unread s) = .error e)
    (h : decodeBody exec s = .next t) : s.inLen ≤ s.inBytes.length := by
  by_contra short
  rw [decodeBody, if_pos hk, cut] at h
  exact nomatch (if_pos (Nat.lt_of_not_le short)).symm.trans h

theorem decodeBody_answersAlike (other : State) (hp : s.phase = .body) (hc : s.cmd = .decode)
    (h : decodeBody exec s = .next t) : AnswersAlike other s t := by
  have running := step_decodeBody (s := withUnread other s) hp hc
  obtain ⟨hk, c, rest, decoded, executed⟩ | ⟨hk, ⟨e, cut⟩, rfl⟩ | ⟨hk, rfl⟩ := decodeBody_next h
  · have enough := decode_unread_within decoded
    cases (exec_of_enough enough).symm.trans executed
    exact ⟨other, running.trans ((decodeBody_of_chunk (s := withUnread other s) hk decoded).trans
      (exec_of_enough (s := withUnread other s) enough)), fun ended => absurd (.inr (.inl hp)) ended⟩
  · have supplied := supplied_of_cut hk cut h
    exact answersAlike_raise (running.trans
      (decodeBody_of_cut (s := withUnread other s) hk supplied cut))
  · exact ⟨other, running.trans (decodeBody_of_end (s := withUnread other s) hk),
      fun ended => absurd (.inr (.inr rfl)) ended⟩

theorem decodeTrailer_answersAlike (other : State) (hp : s.phase = .trailer) (hc : s.cmd = .decode)
    (h : decodeTrailer s = .next t) : AnswersAlike other s t := by
  have running := step_decodeTrailer (s := withUnread other s) hp hc
  obtain short | long := Nat.lt_or_ge s.inLen (s.pos + trailerLength)
  · cases (decodeTrailer_of_short short).symm.trans h
    exact answersAlike_raise (running.trans (decodeTrailer_of_short (s := withUnread other s) short))
  cases read : memRead s.pos trailerLength s with
  | none =>
    rw [decodeTrailer, if_neg (Nat.not_lt.mpr long), read] at h
    cases h
  | some bytes =>
    have checked := running.trans (decodeTrailer_of_bytes (s := withUnread other s) long read)
    rw [decodeTrailer_of_bytes long read] at h
    split at h <;> cases h
    · next marker => exact ⟨{ other with status := .ok }, checked.trans (if_pos marker), fun _ => rfl⟩
    · next differs => exact answersAlike_raise (checked.trans (if_neg differs))

/-- A DECODE past its header, running or ended, that no host move waits for. -/
structure PastHeader (s : State) : Prop where
  cmd : s.cmd = .decode
  phase : s.phase ≠ .header
  waiting : s.host = []

theorem pastHeader_of_step (hs : PastHeader s) (hr : Running s) (h : step s = .next t) : PastHeader t := by
  have notStart := hs.phase
  have phase : t.phase ≠ .header := by
    obtain same | ⟨start, -⟩ | ⟨-, moved⟩ | ⟨-, moved⟩ | moved := running_phase hr h
    · rwa [same]
    · exact absurd start notStart
    all_goals simp [moved]
  rw [decode_frame hr hs.cmd h]
  exact ⟨hs.cmd, phase, hs.waiting⟩

/-- One step of a DECODE past its header, of two cores. -/
theorem step_answersAlike (other : State) (hs : PastHeader s) (shared : OutcomeShared other s) (h : step s = .next t) :
    AnswersAlike other s t ∧ PastHeader t := by
  by_cases hr : Running s
  · refine ⟨?_, pastHeader_of_step hs hr h⟩
    obtain ⟨he, -⟩ | ⟨he, -⟩ | ⟨he, -⟩ | ⟨-, hp, -⟩ | ⟨-, hp, h⟩ | ⟨-, hp, h⟩ := running_next hr h
    iterate 3 exact nomatch hs.cmd.symm.trans he
    · exact absurd hp hs.phase
    · exact decodeBody_answersAlike other hp hs.cmd h
    · exact decodeTrailer_answersAlike other hp hs.cmd h
  · cases (step_of_waiting hr hs.waiting).symm.trans h
    exact ⟨⟨other, step_of_waiting (s := withUnread other s) hr hs.waiting, shared⟩, hs⟩

/-- After every number of steps that `s` takes, `s'` is in the same phase with the same result. -/
def SameAnswers (s s' : State) : Prop :=
  ∀ steps t, core.run steps s = .next t →
    ∃ t', core.run steps s' = .next t' ∧ t'.phase = t.phase ∧ result t' = result t

variable {s' : State}

theorem sameAnswers_of_step (phase : s'.phase = s.phase) (same : result s' = result s)
    (follows : ∀ u, step s = .next u → ∃ u', step s' = .next u' ∧ SameAnswers u u') : SameAnswers s s' := by
  intro steps t ran
  cases steps with
  | zero => cases ran; exact ⟨s', rfl, phase, same⟩
  | succ steps =>
    obtain ⟨u, stepped, ran⟩ := next_of_run_succ ran
    obtain ⟨u', stepped', alike⟩ := follows u stepped
    rw [run_of_next (M := core) steps stepped']
    exact alike steps t ran

theorem run_of_waiting (steps : Nat) (hr : ¬ Running s) (waiting : s.host = []) : core.run steps s = .next s := by
  induction steps with
  | zero => rfl
  | succ steps ih => exact (run_of_next (M := core) steps (step_of_waiting hr waiting)).trans ih

theorem sameAnswers_raise (e : Failure) (waiting : s.host = []) (waiting' : s'.host = []) :
    SameAnswers (raise e s) (raise e s') := by
  intro steps t ran
  have ended : ∀ u : State, ¬ Running (raise e u) := fun u => not_running_of_ended (.inr (raise_phase u e))
  cases (run_of_waiting steps (ended s) waiting).symm.trans ran
  exact ⟨_, run_of_waiting steps (ended s') waiting', rfl, rfl⟩

theorem sameAnswers_withUnread {other : State} (hs : PastHeader s) (shared : OutcomeShared other s) :
    SameAnswers s (withUnread other s) := by
  intro steps
  induction steps generalizing s other with
  | zero => rintro t ⟨⟩; exact ⟨_, rfl, rfl, result_withUnread shared⟩
  | succ steps ih =>
    intro t ran
    obtain ⟨u, stepped, ran⟩ := next_of_run_succ ran
    obtain ⟨⟨other', stepped', shared'⟩, past⟩ := step_answersAlike other hs shared stepped
    rw [run_of_next (M := core) steps stepped']
    exact ih past shared' t ran

/-- The state from which a core runs the DECODE that was its one waiting move. -/
def startedDecode (s : State) : State := startCommand .decode { s with host := [] }

theorem step_writeCmd_decode (hp : s.phase = .idle) (hh : s.host = [.writeCmd .decode]) :
    step s = .next (startedDecode s) :=
  (step_of_move (not_running_of_idle hp) hh).trans (writeCmd_of_idle .decode hp)

section
variable (config : s'.config = s.config) (inBytes : s'.inBytes = s.inBytes) (inLen : s'.inLen = s.inLen)
  (capacity : s'.pixelCapacity = s.pixelCapacity)
include config inBytes inLen capacity

/-- A parsed header replaces what the two cores held of an earlier one. -/
theorem afterHeader_startedDecode (h : ImageHeader) :
    afterHeader h (startedDecode s') = withUnread s' (afterHeader h (startedDecode s)) := by
  simp [afterHeader, startedDecode, startCommand, withUnread, loadHeader, setPhase, setPos, resetEncode, resetDecode,
    openCommand, config, inBytes, inLen, capacity]

/-- The header is judged alike in both cores: they fail alike, or go on with one and the same header. -/
theorem sameAnswers_started : SameAnswers (startedDecode s) (startedDecode s') := by
  refine sameAnswers_of_step rfl rfl fun u stepped => ?_
  have running : step (startedDecode s') = decodeHeader (startedDecode s') := step_decodeHeader rfl rfl
  obtain ⟨short, rfl⟩ | ⟨m, h, parsed, long, judged⟩ := decodeHeader_next stepped
  · exact ⟨_, running.trans (decodeHeader_of_short (inLen.trans_lt short)), sameAnswers_raise _ rfl rfl⟩
  have long' : headerLength ≤ (startedDecode s').inLen := long.trans_eq inLen.symm
  have parsed' : parseHeader ((startedDecode s').inBytes.take (startedDecode s').inLen) = some (m, h) := by
    rw [← parsed]
    exact congrArg₂ (fun n (bytes : List Byte) => parseHeader (bytes.take n)) inLen inBytes
  have magic : (startedDecode s').config.magic = (startedDecode s).config.magic := congrArg Config.magic config
  rw [← magic] at judged
  obtain ⟨bad, rfl⟩ | ⟨good, fits, rfl⟩ := judged
  · exact ⟨_, running.trans (decodeHeader_of_bad long' parsed' bad), sameAnswers_raise _ rfl rfl⟩
  · refine ⟨_, running.trans (decodeHeader_of_good long' parsed' good (fits.trans_eq capacity.symm)), ?_⟩
    rw [afterHeader_startedDecode config inBytes inLen capacity]
    exact sameAnswers_withUnread ⟨rfl, nofun, rfl⟩ fun ended => absurd (.inr (.inl rfl)) ended

end

/-- Settles O56: once its command has started, a core differs from the other in nothing that judges the header, and past
the header in nothing a DECODE reads. -/
theorem decodeForgetsEarlierCommands : Obligations.DecodeForgetsEarlierCommands := by
  intro s s' t steps hp hp' hh hh' config inBytes inLen capacity ran
  refine sameAnswers_of_step (hp'.trans hp.symm) (by simp [result, hp, hp']) (fun u stepped => ?_) steps t ran
  cases (step_writeCmd_decode hp hh).symm.trans stepped
  exact ⟨_, step_writeCmd_decode hp' hh', sameAnswers_started config inBytes inLen capacity⟩

end Sys2Proof.Proofs.Decoder
end

section
namespace Sys2Proof.Proofs.Exceptions

open Sys2Proof Sys2Proof.Machine
open Sys2Proof.Proofs.CoreState Sys2Proof.Proofs.CoreInvariant
open Sys2Proof.Proofs.Memory (decodeRefusesAnImageOverCapacity)
open Sys2Proof.Proofs.Chunks (exec_of_enough)
open Sys2Proof.Proofs.Decoder (stepRunsTheDecodedChunk step_of_cut step_trailer step_header_of_bad step_header_of_good)

variable {s t : State}

/-! ### How a step of a running command leaves the command (R200, R203, R204) -/

/-- The phase a failure is raised in (R160, R180, R181, R184, R187). -/
def raisedIn : Failure → Phase
  | .invalidDimensions => .header
  | .invalidChannelCount => .header
  | .badHeader => .header
  | .truncatedStream => .body
  | .badTrailer => .trailer

/-- All a step of a running command can leave behind: the end of the command with OK, a failure of the command and the
phase it ran in, which past the header writes nothing else, or the command running on with `STATUS` as it was. -/
inductive Leaves (s : State) : State → Prop where
  | succeeded (length : Nat) (u : State) : Leaves s (succeed length u)
  | failed {e : Failure} {u : State} (raiser : s.cmd = raisedBy e) (place : s.phase = raisedIn e)
      (precise : s.phase ≠ .header → u = s) : Leaves s (raise e u)
  | continued {t : State} (running : Running t) (status : t.status = s.status) : Leaves s t

theorem leaves_failed_in_header {e : Failure} {u : State} (raiser : s.cmd = raisedBy e) (hp : s.phase = .header)
    (place : raisedIn e = .header) : Leaves s (raise e u) :=
  .failed raiser (hp.trans place.symm) fun past => absurd hp past

theorem leaves_failed_past_header {e : Failure} (raiser : s.cmd = raisedBy e) (place : s.phase = raisedIn e) :
    Leaves s (raise e s) :=
  .failed raiser place fun _ => rfl

theorem leaves_of_encodeHeader (hc : s.cmd = .encode) (hp : s.phase = .header) (h : encodeHeader s = .next t) :
    Leaves s t := by
  obtain ⟨-, rfl⟩ | ⟨-, rfl⟩ | ⟨-, -, -, -, rfl⟩ := encodeHeader_next h
  · exact leaves_failed_in_header hc hp rfl
  · exact leaves_failed_in_header hc hp rfl
  · exact .continued (.inr (.inl rfl)) rfl

theorem leaves_of_encodeBody (hp : s.phase = .body) (h : encodeBody s = .next t) : Leaves s t := by
  obtain ⟨-, p, -, rfl, -⟩ | ⟨-, rfl⟩ := encodeBody_next h
  · exact .continued (.inr (.inl ((encodePixel_phase _ s).trans hp))) (by rw [encodePixel_frame])
  · exact .continued (.inr (.inr rfl)) rfl

theorem leaves_of_encodeTrailer (h : encodeTrailer s = .next t) : Leaves s t := by
  obtain ⟨rfl, -⟩ := encodeTrailer_next h
  exact .succeeded _ _

theorem leaves_of_decodeHeader (hc : s.cmd = .decode) (hp : s.phase = .header) (h : decodeHeader s = .next t) :
    Leaves s t := by
  obtain ⟨-, rfl⟩ | ⟨m, hd, -, -, ⟨-, rfl⟩ | ⟨-, -, rfl⟩⟩ := decodeHeader_next h
  · exact leaves_failed_in_header hc hp rfl
  · exact leaves_failed_in_header hc hp rfl
  · exact .continued (.inr (.inl rfl)) rfl

theorem leaves_of_decodeBody (hc : s.cmd = .decode) (hp : s.phase = .body) (h : decodeBody exec s = .next t) :
    Leaves s t := by
  obtain ⟨-, i, rest, -, h⟩ | ⟨-, -, rfl⟩ | ⟨-, rfl⟩ := decodeBody_next h
  · obtain rfl | ⟨phase, status⟩ := exec_ends h
    · exact leaves_failed_past_header hc hp
    · exact .continued (.inr (.inl (phase.trans hp))) status
  · exact leaves_failed_past_header hc hp
  · exact .continued (.inr (.inr rfl)) rfl

theorem leaves_of_decodeTrailer (hc : s.cmd = .decode) (hp : s.phase = .trailer) (h : decodeTrailer s = .next t) :
    Leaves s t := by
  obtain rfl | ⟨-, -, rfl⟩ := decodeTrailer_next h
  · exact leaves_failed_past_header hc hp
  · exact .succeeded _ _

theorem leaves_of_step (hr : Running s) (h : step s = .next t) : Leaves s t := by
  obtain ⟨hc, hp, h⟩ | ⟨-, hp, h⟩ | ⟨-, -, h⟩ | ⟨hc, hp, h⟩ | ⟨hc, hp, h⟩ | ⟨hc, hp, h⟩ := running_next hr h
  · exact leaves_of_encodeHeader hc hp h
  · exact leaves_of_encodeBody hp h
  · exact leaves_of_encodeTrailer h
  · exact leaves_of_decodeHeader hc hp h
  · exact leaves_of_decodeBody hc hp h
  · exact leaves_of_decodeTrailer hc hp h

/-- A running command reaches FAILED by raising a failure of its own in the phase it ran in. -/
theorem raised_of_failed (hr : Running s) (h : step s = .next t) (hf : t.phase = .failed) :
    ∃ e u, t = raise e u ∧ s.cmd = raisedBy e ∧ s.phase = raisedIn e ∧ (s.phase ≠ .header → u = s) := by
  cases leaves_of_step hr h with
  | succeeded length u => cases hf
  | failed raiser place precise => exact ⟨_, _, rfl, raiser, place, precise⟩
  | continued running status => exact absurd running (not_running_of_ended (.inr hf))

theorem between_status (hr : ¬ Running s) (h : step s = .next t) : t.status = s.status := by
  obtain ⟨-, rfl⟩ | ⟨m, rest, -, ⟨c, -, -, rfl⟩ | ⟨-, -, rfl⟩ | ⟨-, -, rfl⟩ | ⟨hw, -⟩⟩ := between_next hr h
  · rfl
  · exact startCommand_status _ c
  · exact returnToIdle_status _
  · exact returnToIdle_status _
  · obtain ⟨-, -, -, status, -⟩ := writes_kept hw
    exact status

theorem failureCode_ne_zero (e : Failure) : failureCode e ≠ 0#3 := by
  cases e <;> decide

/-- Settles O45: each of the three ways a step leaves a running command, and the moves between commands. -/
theorem statusIsWrittenAtTheEnd : Obligations.StatusIsWrittenAtTheEnd := by
  intro s t h
  refine ⟨fun hr hd => ?_, fun hr hf => ?_, fun hr notDone notFailed => ?_, fun hr => between_status hr h⟩
  · cases leaves_of_step hr h with
    | succeeded length u => rfl
    | failed raiser place precise => cases hd
    | continued running status => exact absurd running (not_running_of_ended (.inl hd))
  · obtain ⟨e, u, rfl, -⟩ := raised_of_failed hr h hf
    exact ⟨e, rfl, failureCode_ne_zero e⟩
  · cases leaves_of_step hr h with
    | succeeded length u => exact absurd rfl notDone
    | failed raiser place precise => exact absurd rfl notFailed
    | continued running status => exact status

/-- Settles O46: each failure has one command and one phase, and its code is its own. -/
theorem eachFailureHasItsCommandAndPlace : Obligations.EachFailureHasItsCommandAndPlace := by
  intro s t hr h hf
  obtain ⟨e, u, rfl, raiser, place, -⟩ := raised_of_failed hr h hf
  cases e with
  | invalidDimensions => exact .inl ⟨raiser, place, .inl rfl⟩
  | invalidChannelCount => exact .inl ⟨raiser, place, .inr rfl⟩
  | badHeader => exact .inr (.inl ⟨raiser, place, rfl⟩)
  | truncatedStream => exact .inr (.inr (.inl ⟨raiser, place, rfl⟩))
  | badTrailer => exact .inr (.inr (.inr ⟨raiser, place, rfl⟩))

/-- Settles O47: past the header a failure is raised from the state as it stood. -/
theorem failuresArePrecise : Obligations.FailuresArePrecise := by
  intro s t hp h hf
  obtain ⟨e, u, rfl, -, -, precise⟩ := raised_of_failed (.inr hp) h hf
  have past : s.phase ≠ .header := by obtain hp | hp := hp <;> simp [hp]
  cases precise past
  exact ⟨e, rfl⟩

/-! ### What stops a running command (R65, R217, R218) -/

/-- An answer that is a next state, or a refusal for this reason. -/
def GoesOnOr (r : Refusal) (o : Outcome) : Prop := (∃ t, o = .next t) ∨ o = .refused r

theorem withinSink_goesOn (s : State) : GoesOnOr .outputOverCapacity (withinSink s) := by
  obtain ⟨-, fits⟩ | ⟨-, refused⟩ := withinSink_cases s
  · exact .inl ⟨s, fits⟩
  · exact .inr refused

theorem encodeHeader_goesOn (s : State) : GoesOnOr .outputOverCapacity (encodeHeader s) := by
  by_cases size : pixelCount s.hdrWidth s.hdrHeight = 0 ∨ pixelCount s.hdrWidth s.hdrHeight ≠ s.inLen
  · exact .inl ⟨_, encodeHeader_of_size size⟩
  obtain ⟨positive, matched⟩ := not_or.mp size
  by_cases channels : channelsOk s.hdrChannels
  · rw [encodeHeader_of_valid positive (not_not.mp matched) channels]
    exact withinSink_goesOn _
  · exact .inl ⟨_, encodeHeader_of_channels positive (not_not.mp matched) channels⟩

/-- With a pixel handed over for each that `N` counts, no pixel is missing. -/
theorem encodeBody_goesOn (supplied : s.inPixels.length = s.n) : GoesOnOr .outputOverCapacity (encodeBody s) := by
  obtain hk | hk := Nat.lt_or_ge s.k s.n
  · have pixel : inPixel s.k s = some (s.inPixels[s.k]'(supplied ▸ hk)) := List.getElem?_eq_getElem _
    rw [encodeBody_of_pixel hk pixel]
    exact withinSink_goesOn _
  · exact .inl ⟨_, encodeBody_of_end hk⟩

/-- ENCODE is refused for its sink alone: what it reads, the invariant and the launch premise put there. -/
theorem step_encode_goesOn (hi : Invariant s) (hr : Running s) (hc : s.cmd = .encode)
    (supplied : s.inPixels.length = s.inLen) : GoesOnOr .outputOverCapacity (step s) := by
  obtain hp | hp | hp := hr
  · rw [step_encodeHeader hp hc]
    exact encodeHeader_goesOn s
  · rw [step_encodeBody hp hc]
    have encoding := hi.encoding hc (.inl hp)
    exact encodeBody_goesOn (supplied.trans encoding.matched.symm)
  · rw [step_encodeTrailer hp hc]
    exact withinSink_goesOn _

/-- A buffer of 14 bytes parses, a shorter one is BadHeader, so the sink alone is left to refuse. -/
theorem step_decodeHeader_goesOn (hp : s.phase = .header) (hc : s.cmd = .decode)
    (supplied : s.inBytes.length = s.inLen) : GoesOnOr .pixelsOverCapacity (step s) := by
  obtain short | long := Nat.lt_or_ge s.inLen headerLength
  · exact .inl ⟨_, (step_decodeHeader hp hc).trans (decodeHeader_of_short short)⟩
  obtain ⟨m, h, parsed⟩ := parseHeader_of_length (long.trans_eq supplied.symm)
  by_cases good : headerOk s.config.magic m h
  · obtain tooLarge | fits := Nat.lt_or_ge s.pixelCapacity (pixelCount h.width h.height)
    · obtain ⟨rfl, channels, width, height⟩ := good
      exact .inr (decodeRefusesAnImageOverCapacity s h hp hc supplied parsed channels width height tooLarge)
    · exact .inl ⟨_, step_header_of_good hp hc supplied parsed good fits⟩
  · exact .inl ⟨_, step_header_of_bad hp hc supplied parsed good⟩

/-- A chunk that decodes has all its bytes, and one that is cut short is TruncatedStream. -/
theorem step_decodeBody_answers (hp : s.phase = .body) (hc : s.cmd = .decode)
    (supplied : s.inBytes.length = s.inLen) : ∃ t, step s = .next t := by
  obtain owed | ended := Nat.lt_or_ge s.count s.n
  · cases decoded : decode (unread s) with
    | error e => exact ⟨_, step_of_cut hp hc owed supplied decoded⟩
    | ok out =>
      obtain ⟨c, rest⟩ := out
      exact ⟨_, (stepRunsTheDecodedChunk s c rest hp hc owed decoded).trans
        (exec_of_enough (decode_unread_within decoded))⟩
  · exact ⟨_, (step_decodeBody hp hc).trans (decodeBody_of_end ended)⟩

theorem step_decodeTrailer_answers (hp : s.phase = .trailer) (hc : s.cmd = .decode)
    (supplied : s.inBytes.length = s.inLen) : ∃ t, step s = .next t := by
  rw [step_trailer hp hc supplied]
  split <;> exact ⟨_, rfl⟩

/-- Settles O48: ENCODE is refused for its sink alone, DECODE too and in its header only. -/
theorem onlyCapacityStopsACommand : Obligations.OnlyCapacityStopsACommand := by
  intro s hi hr launched
  cases hc : s.cmd with
  | encode =>
    rw [Launched, hc] at launched
    obtain next | refused := step_encode_goesOn hi hr hc launched
    · exact .inl next
    · exact .inr (.inl ⟨rfl, refused⟩)
  | decode =>
    rw [Launched, hc] at launched
    obtain hp | hp | hp := hr
    · obtain next | refused := step_decodeHeader_goesOn hp hc launched
      · exact .inl next
      · exact .inr (.inr ⟨rfl, hp, refused⟩)
    · exact .inl (step_decodeBody_answers hp hc launched)
    · exact .inl (step_decodeTrailer_answers hp hc launched)

end Sys2Proof.Proofs.Exceptions
end

section
namespace Sys2Proof.Proofs.ResetAndHazards

open Sys2Proof Sys2Proof.Machine
open Sys2Proof.Proofs.CoreState (not_running_of_idle)
open Sys2Proof.Proofs.CoreInvariant (invariant_of_idle)
open Sys2Proof.Proofs.Memory (encode_frame decode_frame)
open Sys2Proof.Proofs.Encoder (step_of_waiting)

variable {s t : State}

/-! ### The parameters (R233) -/

/-- The parameters are not among what either command writes (R57, R60). -/
theorem running_config (hr : Running s) (h : step s = .next t) : t.config = s.config := by
  cases hc : s.cmd with
  | encode => rw [encode_frame hr hc h]
  | decode => rw [decode_frame hr hc h]

theorem writes_config {m : HostMove} (h : Writes m s t) : t.config = s.config := by
  cases h <;> rfl

theorem between_config (hr : ¬ Running s) (h : step s = .next t) : t.config = s.config := by
  obtain ⟨-, rfl⟩ | ⟨m, rest, -, ⟨c, -, -, rfl⟩ | ⟨-, -, rfl⟩ | ⟨-, -, rfl⟩ | ⟨hw, -⟩⟩ := between_next hr h
  · rfl
  · exact startCommand_config _ c
  · exact returnToIdle_config _
  · exact returnToIdle_config _
  · have kept := writes_config hw
    exact kept

/-- Settles O43: neither a running command nor a move between commands writes the parameters. -/
theorem magicNeverChanges : Obligations.MagicNeverChanges := by
  intro s t h
  by_cases hr : Running s
  · exact running_config hr h
  · exact between_config hr h

/-! ### Power-on (R230, R232) -/

/-- Settles O37: the registers by the reset values; a core in IDLE runs no command, so without a move it waits. -/
theorem powerOnWaitsInIdle : Obligations.PowerOnWaitsInIdle :=
  ⟨rfl, rfl, rfl, fun _ idle waiting => step_of_waiting (not_running_of_idle idle) waiting⟩

/-- Settles O50: power-on is in IDLE, where the invariant asks nothing. -/
theorem powerOnMeetsTheInvariant : Obligations.PowerOnMeetsTheInvariant :=
  invariant_of_idle rfl

end Sys2Proof.Proofs.ResetAndHazards
end
